-- ==== Sys2Proof/Word.lean ====
section
/-! DEFINITION. The word types of DSD-CORE (spec/00_scope.md R7, spec/30_encoding.md R55) and the plainest
arithmetic on them. -/

namespace Sys2Proof

/-- A byte of the slow data or of the D-STAR header (R19, R20). -/
abbrev Byte := BitVec 8

/-- `SAMPLE` and `SYMBOL`: 16-bit two's complement (R56, R57); read with `BitVec.toInt`. -/
abbrev Sample := BitVec 16

/-- `DIBIT` (R64): `d[1]` is bit 1, the more significant one (R54 (a)). -/
abbrev Dibit := BitVec 2

/-- `FTYPE` (R61): 6-bit two's complement, -1 for none, 0 to 19 the frame-type codes. -/
abbrev Ftype := BitVec 6

/-- `WENT` (R65): 0 to 3 a quaternary digit, 4 the empty entry `E`, 5 to 7 reserved. -/
abbrev Went := BitVec 3

/-- `FRAME` (R70): `fr[w][x]` is bit `24 * w + x`, so row 0 position 0 is first. -/
abbrev Frame := BitVec 96

/-- A 660-bit vector of the header decode; entry i of the spec is bit i. -/
abbrev Block := BitVec 660

/-- A command word of the model, as the number its bits make: bits 7..0 a row's code, 15..8 its format, from 16 on the
operands (DESIGN CHOICE, notes/assumptions/2.md; the spec has no instruction memory). -/
abbrev CommandWord := Nat

/-- The 16-bit two's complement word of an integer. -/
def s16 (x : Int) : Sample := BitVec.ofInt 16 x

end Sys2Proof
end

