-- ==== Sys2Proof/Config.lean ====
section
/-! DEFINITION. The configuration record `CFG` (spec/00_scope.md R5) with its ROMs (spec/20_memory.md R46 to R51),
and the fixed constants the spec gives (R6). The default ROM contents and the decided configuration are values of
this record in Machine/Rom.lean. The two free values are what a register takes when a rule's result does not fit its
width (the spec has no such case under the decided configuration, R36, and gives none a result: notes/assumptions/14.md)
and the dibit `DMRV.SLOT3` scatters for an offset beyond its slot (notes/assumptions/23.md). -/

namespace Sys2Proof

/-- The protocols in the priority order of R46 and R102. -/
inductive Protocol where
  | p25p1 | x2tdma | dmr | provoice | nxdn | dstar
  deriving DecidableEq, Repr

/-- The row names of `ROM.SYNC` (R46). -/
inductive SyncName where
  | p25p1Sync | invP25p1Sync
  | x2tdmaBsDataSync | x2tdmaMsDataSync | x2tdmaBsVoiceSync | x2tdmaMsVoiceSync
  | dmrBsDataSync | dmrMsDataSync | dmrBsVoiceSync | dmrMsVoiceSync
  | provoiceSync | invProvoiceSync
  | nxdnVoiceSync | invNxdnVoiceSync | nxdnDataSync | invNxdnDataSync
  | dstarSync | invDstarSync | dstarHd | invDstarHd
  deriving DecidableEq, Repr

/-- One row of `ROM.SYNC` (R46). `pattern` is quaternary-digit text, oldest character first (R66), `none` where the
spec says OPEN; `code0` and `code1` are the code columns for inversion flag 0 and 1; the enable flag is the
protocol's. -/
structure SyncRow where
  name    : SyncName
  proto   : Protocol
  len     : Nat
  pattern : Option (List Dibit)
  code0   : Ftype
  code1   : Ftype
  twoHit  : Bool
  deriving DecidableEq, Repr

/-- Inclusive sample-index bounds of an averaging window: `WIN_LO[m]`, `WIN_HI[m]` (R5). -/
structure Window where
  lo : Nat
  hi : Nat
  deriving DecidableEq, Repr

/-- The eleven named burst subtypes (R68). -/
inductive BurstSubtype where
  | piHeader | voiceLcHeader | terminatorWithLc | csbk | mbcHeader | mbcContinuation
  | dataHeader | rate12Data | rate34Data | idle | rate1Data
  deriving DecidableEq, Repr

/-- The convolutional code's two generators (R135, parameters by 93_implementation_defined.md G9): bit 2 takes the input
bit, bit 1 the delay `D1`, bit 0 the delay `D2`, the order of the octal digit (notes/assumptions/18.md). -/
structure ConvCode where
  g1 : BitVec 3
  g2 : BitVec 3
  deriving DecidableEq, Repr

/-- The first bytes of the header's fields after `flags` (R72, parameters by 93_implementation_defined.md G7). -/
structure HeaderOffsets where
  rpt2   : Nat
  rpt1   : Nat
  urcall : Nat
  mycall : Nat
  suffix : Nat
  fcs    : Nat
  deriving DecidableEq, Repr

/-- `CFG` (R5). Booleans are the 1-bit flags. -/
structure Config where
  sps              : Nat
  center           : Nat
  winC4fm          : Window
  winQpsk          : Window
  winGfsk          : Window
  modThreshold     : Nat
  enP25p1          : Bool
  enX2tdma         : Bool
  enDmr            : Bool
  enProvoice       : Bool
  enNxdn           : Bool
  enDstar          : Bool
  invX2tdma        : Bool
  invDmr           : Bool
  modC4fm          : Bool
  modQpsk          : Bool
  modGfsk          : Bool
  nudgeInSync      : Bool
  histCap          : Nat
  hintWindow       : Nat
  carrierTimeout   : Nat
  dmrVoiceBlocks   : Nat
  dmrVoiceEnd      : Nat
  dmrDataSpan      : Nat
  dstarDataSyms    : Nat
  dstarSyncPeriod  : Nat
  dstarMissLimit   : Nat
  /-- `ROM.SYNC`, in table order (R46). -/
  romSync          : List SyncRow
  /-- `ROM.SCR` (R47), 720 bits: bit i of the number is entry i. -/
  romScr           : Nat
  /-- `ROM.RW`, `ROM.RX`, `ROM.RY`, `ROM.RZ` (R48). -/
  romRw            : List Nat
  romRx            : List Nat
  romRy            : List Nat
  romRz            : List Nat
  /-- `ROM.DW`, `ROM.DX` (R49). -/
  romDw            : List Nat
  romDx            : List Nat
  /-- `ROM.DMRSYNC` (R50). -/
  bsVoice          : List Dibit
  bsData           : List Dibit
  msVoice          : List Dibit
  msData           : List Dibit
  /-- `ROM.DSTAR` (R51). -/
  dstarSync24      : BitVec 24
  dstarEot24       : BitVec 24
  dstarMask0       : Byte
  dstarMask1       : Byte
  dstarMask2       : Byte
  /-- `ROM.BURST` (R68): a value without an entry has the subtype `Unknown`. -/
  romBurst         : List (BitVec 4 × BurstSubtype)
  /-- The generators of the convolutional code (R135, G9). -/
  convCode         : ConvCode
  /-- Which CACH dibit, and which bit of it, is the TDMA slot number (R155, G10). -/
  cachSlotDibit    : Nat
  cachSlotBit      : Nat
  /-- Where the header's fields begin (R72, G7): a view, read by no rule. -/
  headerOffsets    : HeaderOffsets
  /-- Whether a table with two enabled rows of one length and one pattern is refused, as item U12 of
  93_implementation_defined.md says, or legal with the earlier row winning, as R113 says (notes/assumptions/13.md). -/
  distinctPatterns : Bool
  deriving DecidableEq, Repr

/-- The registers whose rule computes a number that a legal but not decided configuration, or a state no run reaches, can
make too large for them (R36). -/
inductive Counter where
  | sidx | sum | cnt | npos | nneg | symbol | lastt | synctestPos | tHint | symbolIndex | dcount | dstPos | dphase | miss
  | hdCnt
  deriving DecidableEq, Repr

namespace Config

/-- FREE VALUE: what a register of `w` bits takes when its rule gives it `n`, which does not fit (DESIGN CHOICE,
notes/assumptions/14.md: the spec states no result there). -/
opaque pastWidth (w : Nat) (r : Counter) (n : Int) : BitVec w

/-- FREE VALUE: the dibit that `DMRV.SLOT3(d, k)` scatters for an offset `k` beyond the slot's 18 symbols, in a frame that
holds `fr` (DESIGN CHOICE, notes/assumptions/23.md: R159 gives k in 0..17 and states no result beyond). -/
opaque pairPastSlot (d : Dibit) (k : Nat) (fr : Frame) : Dibit

/-- Length of the DMR major block: the sum of `ROM.SLOT` (R51, R150). -/
def majorBlockLen : Nat := 288

/-- Symbols of a D-STAR voice segment (R6, R176). -/
def voiceSegment : Nat := 72

/-- Symbols of the D-STAR header block (R6, R189). -/
def headerSymbols : Nat := 660

/-- The fixed flip threshold (R6, R98). -/
def flipThreshold : Int := 18

/-- Symbols that must have been observed before matching (R6, R100). -/
def matchGate : Nat := 18

end Config
end Sys2Proof
end

