-- ==== Sys2Proof/Syntax.lean ====
section
/-! DEFINITION. The instructions: one constructor per row of spec/opcode_table.json, in the table's order. The spec's
"instructions" are unit operations, dispatch words and code values (R55, R58, R62, R74; D1); a row with a contract
`OP(args)` carries those arguments in the contract's order (R79). -/

namespace Sys2Proof

inductive Instr where
  -- format DISPATCH
  /-- `FS.STEP` (R95): 0x00 / 0x70. -/
  | fsStep
  /-- `DMRV.SLOT0` (R154): 0x10 / 0x7F. -/
  | dmrvSlot0 (d : Dibit) (k : BitVec 6)
  /-- `DMRV.SLOT1` (R155): 0x11 / 0x7F. -/
  | dmrvSlot1 (d : Dibit) (k : BitVec 6)
  /-- `DMRV.SLOT2` (R158): 0x12 / 0x7F. -/
  | dmrvSlot2 (d : Dibit) (k : BitVec 6)
  /-- `DMRV.SLOT3` (R159): 0x13 / 0x7F. -/
  | dmrvSlot3 (d : Dibit) (k : BitVec 6)
  /-- `DMRV.SLOT4` (R160): 0x14 / 0x7F. -/
  | dmrvSlot4 (d : Dibit) (k : BitVec 6)
  /-- `DMRV.SLOT5` (R161): 0x15 / 0x7F. -/
  | dmrvSlot5 (d : Dibit) (k : BitVec 6)
  /-- `DMRV.SLOT6` (R162): 0x16 / 0x7F. -/
  | dmrvSlot6 (d : Dibit) (k : BitVec 6)
  /-- `DMRV.SLOT7` (R156): 0x17 / 0x7F. -/
  | dmrvSlot7 (d : Dibit) (k : BitVec 6)
  /-- `DMRV.SLOT8` (R154): 0x18 / 0x7F. -/
  | dmrvSlot8 (d : Dibit) (k : BitVec 6)
  /-- `DMRV.SLOT9` (R164): 0x19 / 0x7F. -/
  | dmrvSlot9 (d : Dibit) (k : BitVec 6)
  /-- `DMRV.SLOT10` (R169): 0x1A / 0x7F. -/
  | dmrvSlot10 (d : Dibit) (k : BitVec 6)
  /-- `DMRV.TAIL` (R170): 0x1B / 0x7F. -/
  | dmrvTail (d : Dibit) (k : BitVec 6)
  /-- `DMRD.STEP` (R168): 0x20 / 0x70. -/
  | dmrdStep
  /-- `DSTV.BIT` (R178): 0x30 / 0x7F. -/
  | dstvBit
  /-- `DSTD.BIT` (R181): 0x31 / 0x7F. -/
  | dstdBit
  /-- `DSTH.BIT` (R189): 0x40 / 0x70. -/
  | dsthBit
  /-- `DISPATCH.RESERVED5` (R75): 0x50 / 0x70. -/
  | dispatchReserved5
  /-- `DISPATCH.RESERVED67` (R75): 0x60 / 0x60. -/
  | dispatchReserved67
  -- format FTYPE
  /-- `FTYPE.P25P1` (R62): 0x00 / 0x3F. -/
  | ftypeP25p1
  /-- `FTYPE.P25P1.INV` (R62): 0x01 / 0x3F. -/
  | ftypeP25p1Inv
  /-- `FTYPE.X2TDMA.DATA` (R62): 0x02 / 0x3F. -/
  | ftypeX2tdmaData
  /-- `FTYPE.X2TDMA.VOICE.INV` (R62): 0x03 / 0x3F. -/
  | ftypeX2tdmaVoiceInv
  /-- `FTYPE.X2TDMA.VOICE` (R62): 0x04 / 0x3F. -/
  | ftypeX2tdmaVoice
  /-- `FTYPE.X2TDMA.DATA.INV` (R62): 0x05 / 0x3F. -/
  | ftypeX2tdmaDataInv
  /-- `FTYPE.DSTAR` (R62): 0x06 / 0x3F. -/
  | ftypeDstar
  /-- `FTYPE.DSTAR.INV` (R62): 0x07 / 0x3F. -/
  | ftypeDstarInv
  /-- `FTYPE.NXDN.VOICE` (R62): 0x08 / 0x3F. -/
  | ftypeNxdnVoice
  /-- `FTYPE.NXDN.VOICE.INV` (R62): 0x09 / 0x3F. -/
  | ftypeNxdnVoiceInv
  /-- `FTYPE.DMR.DATA` (R62): 0x0A / 0x3F. -/
  | ftypeDmrData
  /-- `FTYPE.DMR.VOICE.INV` (R62): 0x0B / 0x3F. -/
  | ftypeDmrVoiceInv
  /-- `FTYPE.DMR.VOICE` (R62): 0x0C / 0x3F. -/
  | ftypeDmrVoice
  /-- `FTYPE.DMR.DATA.INV` (R62): 0x0D / 0x3F. -/
  | ftypeDmrDataInv
  /-- `FTYPE.PROVOICE` (R62): 0x0E / 0x3F. -/
  | ftypeProvoice
  /-- `FTYPE.PROVOICE.INV` (R62): 0x0F / 0x3F. -/
  | ftypeProvoiceInv
  /-- `FTYPE.NXDN.DATA` (R62): 0x10 / 0x3F. -/
  | ftypeNxdnData
  /-- `FTYPE.NXDN.DATA.INV` (R62): 0x11 / 0x3F. -/
  | ftypeNxdnDataInv
  /-- `FTYPE.DSTARHD` (R62): 0x12 / 0x3F. -/
  | ftypeDstarhd
  /-- `FTYPE.DSTARHD.INV` (R62): 0x13 / 0x3F. -/
  | ftypeDstarhdInv
  /-- `FTYPE.NONE` (R61): 0x3F / 0x3F. -/
  | ftypeNone
  -- format UOP
  /-- `UOP.STR.PUSH` (R80): 0x00 / 0x1F. -/
  | uopStrPush (sample : Sample) (haveSync : Bool)
  /-- `UOP.MAJ.VOTE` (R87): 0x01 / 0x1F. -/
  | uopMajVote
  /-- `UOP.FS.STEP` (R95): 0x02 / 0x1F. -/
  | uopFsStep (v : Sample)
  /-- `UOP.FS.NOCARRIER` (R108): 0x03 / 0x1F. -/
  | uopFsNocarrier
  /-- `UOP.DBT.NEXT` (R116): 0x04 / 0x1F. -/
  | uopDbtNext
  /-- `UOP.DSC.XOR660` (R125): 0x05 / 0x1F. -/
  | uopDscXor660 (input : Block)
  /-- `UOP.DIL.PERM660` (R128): 0x06 / 0x1F. -/
  | uopDilPerm660 (input : Block)
  /-- `UOP.VIT.DECODE` (R136): 0x07 / 0x1F. -/
  | uopVitDecode (bits : Block)
  /-- `UOP.DMRV.ENTER` (R152): 0x08 / 0x1F. -/
  | uopDmrvEnter
  /-- `UOP.DMRV.STEP` (R153): 0x09 / 0x1F. -/
  | uopDmrvStep
  /-- `UOP.DMRD.ENTER` (R166): 0x0A / 0x1F. -/
  | uopDmrdEnter
  /-- `UOP.DMRD.STEP` (R168): 0x0B / 0x1F. -/
  | uopDmrdStep
  /-- `UOP.DST.ENTER` (R175): 0x0C / 0x1F. -/
  | uopDstEnter
  /-- `UOP.DSTV.BIT` (R178): 0x0D / 0x1F. -/
  | uopDstvBit
  /-- `UOP.DSTD.BIT` (R181): 0x0E / 0x1F. -/
  | uopDstdBit
  /-- `UOP.DSTH.ENTER` (R188): 0x0F / 0x1F. -/
  | uopDsthEnter
  /-- `UOP.DSTH.BIT` (R189): 0x10 / 0x1F. -/
  | uopDsthBit
  /-- `UOP.DSTH.DECODE` (R190): 0x11 / 0x1F. -/
  | uopDsthDecode
  /-- `UOP.ORC.TOSEARCH` (R206): 0x12 / 0x1F. -/
  | uopOrcTosearch
  /-- `UOP.ORC.PUSH` (R200): 0x13 / 0x1F. -/
  | uopOrcPush (sample : Sample)
  /-- `UOP.ORC.RESET` (R212): 0x14 / 0x1F. -/
  | uopOrcReset
  -- format RFMOD
  /-- `RFMOD.C4FM` (R63): 0x00 / 0x03. -/
  | rfmodC4fm
  /-- `RFMOD.QPSK` (R63): 0x01 / 0x03. -/
  | rfmodQpsk
  /-- `RFMOD.GFSK` (R63): 0x02 / 0x03. -/
  | rfmodGfsk
  /-- `RFMOD.RESERVED` (R75): 0x03 / 0x03. -/
  | rfmodReserved
  -- format WENT
  /-- `WENT.DIGIT0` (R65): 0x00 / 0x07. -/
  | wentDigit0
  /-- `WENT.DIGIT1` (R65): 0x01 / 0x07. -/
  | wentDigit1
  /-- `WENT.DIGIT2` (R65): 0x02 / 0x07. -/
  | wentDigit2
  /-- `WENT.DIGIT3` (R65): 0x03 / 0x07. -/
  | wentDigit3
  /-- `WENT.E` (R65): 0x04 / 0x07. -/
  | wentE
  -- format SLOTLIGHT
  /-- `SLOTLIGHT.IDLE` (R69): 0x00 / 0x03. -/
  | slotlightIdle
  /-- `SLOTLIGHT.DATA` (R69): 0x01 / 0x03. -/
  | slotlightData
  /-- `SLOTLIGHT.VOICE` (R69): 0x02 / 0x03. -/
  | slotlightVoice
  /-- `SLOTLIGHT.RESERVED` (R75): 0x03 / 0x03. -/
  | slotlightReserved
  -- format DIBIT
  /-- `DIBIT.RAW.ABOVE_UMID` (R64): 0x01 / 0x03. -/
  | dibitRawAboveUmid
  /-- `DIBIT.RAW.CENTER_TO_UMID` (R64): 0x00 / 0x03. -/
  | dibitRawCenterToUmid
  /-- `DIBIT.RAW.LMID_TO_CENTER` (R64): 0x02 / 0x03. -/
  | dibitRawLmidToCenter
  /-- `DIBIT.RAW.BELOW_LMID` (R64): 0x03 / 0x03. -/
  | dibitRawBelowLmid
  -- format BURSTTYPE
  /-- `BURST.PI_HEADER` (R68): 0x00 / 0x0F. -/
  | burstPiHeader
  /-- `BURST.VOICE_LC_HEADER` (R68): 0x01 / 0x0F. -/
  | burstVoiceLcHeader
  /-- `BURST.TERMINATOR_LC` (R68): 0x02 / 0x0F. -/
  | burstTerminatorLc
  /-- `BURST.CSBK` (R68): 0x03 / 0x0F. -/
  | burstCsbk
  /-- `BURST.MBC_HEADER` (R68): 0x04 / 0x0F. -/
  | burstMbcHeader
  /-- `BURST.MBC_CONT` (R68): 0x05 / 0x0F. -/
  | burstMbcCont
  /-- `BURST.DATA_HEADER` (R68): 0x06 / 0x0F. -/
  | burstDataHeader
  /-- `BURST.RATE12_DATA` (R68): 0x07 / 0x0F. -/
  | burstRate12Data
  /-- `BURST.RATE34_DATA` (R68): 0x08 / 0x0F. -/
  | burstRate34Data
  /-- `BURST.IDLE` (R68): 0x09 / 0x0F. -/
  | burstIdle
  /-- `BURST.RATE1_DATA` (R68): 0x0A / 0x0F. -/
  | burstRate1Data
  -- format CONDITION
  /-- `COND.NOSYNC` (R216): 0x01 / 0x0F. -/
  | condNosync
  /-- `COND.CARRIERLOSS` (R216): 0x02 / 0x0F. -/
  | condCarrierloss
  /-- `COND.BITSLIP` (R216): 0x03 / 0x0F. -/
  | condBitslip
  /-- `COND.SYNCMISSEXCEEDED` (R216): 0x04 / 0x0F. -/
  | condSyncmissexceeded
  /-- `COND.EMPTYWINDOW` (R216): 0x05 / 0x0F. -/
  | condEmptywindow
  /-- `COND.FRAMEDONE` (R216): 0x06 / 0x0F. -/
  | condFramedone
  /-- `COND.ENDOFTX` (R216): 0x07 / 0x0F. -/
  | condEndoftx
  /-- `COND.FOREIGNSYNC` (R216): 0x08 / 0x0F. -/
  | condForeignsync
  deriving DecidableEq, Repr

/-- Why a command word is rejected. -/
inductive DecodeError where
  /-- The format byte names no format of R55. -/
  | unknownFormat (fmt : BitVec 8)
  /-- The code is reserved in its format, or no row has it (R75). -/
  | reservedCode (fmt code : BitVec 8)
  /-- With its offset a slot operation would index past an array or a ROM (R40). -/
  | illFormed
  /-- A bit outside the instruction's format and operands is set (R55: every format has one fixed length). -/
  | strayBits
  deriving DecidableEq, Repr

end Sys2Proof
end

