-- ==== Sys2Proof/WellFormed.lean ====
section
/-! DEFINITION. Which instructions are well formed: those whose operands index nothing outside its space (R40). Only the DMR
slot operations have such an operand, the offset `k` into an array or, through `scatter`, a table of 36 entries (R155 to
R164). -/

namespace Sys2Proof

/-- `k` is an index into `size` entries. -/
def offsetOk (size : Nat) (k : BitVec 6) : Bool := decide (k.toNat < size)

/-- The offsets with which the slot operations index `cach` (R155), `ROM.RW` and its neighbours (R157 to R162), `syncf`
(R160), `cach2` (R156) and `sync2` (R164). The operations that write nothing index nothing (R154, R169, R170);
`DMRV.SLOT3` has entries for offsets beyond its 18 symbols (notes/assumptions/23.md). -/
def Instr.wf : Instr → Bool
  | .dmrvSlot1 _ k => offsetOk 12 k
  | .dmrvSlot2 _ k => offsetOk 36 k
  | .dmrvSlot3 _ k => offsetOk 36 k
  | .dmrvSlot4 _ k => offsetOk 24 k
  | .dmrvSlot5 _ k => offsetOk 18 k
  | .dmrvSlot6 _ k => offsetOk 36 k
  | .dmrvSlot7 _ k => offsetOk 12 k
  | .dmrvSlot9 _ k => offsetOk 24 k
  | _ => true

/-- The proposition form of `Instr.wf`. -/
abbrev Instr.WellFormed (i : Instr) : Prop := i.wf = true

end Sys2Proof
end

