-- ==== Sys2Proof/Decode.lean ====
section
/-! DEFINITION. The decoder and, after it, the encoder. A code is recognised exactly as spec/opcode_table.json gives it
(match under mask, the bits above the format's width 0); the format byte, the place of the operands and the rejection
of stray bits are the model's (notes/assumptions/2.md), since the spec's formats share their words. -/

namespace Sys2Proof

/-- The code field: bits 7..0. -/
def wordCode (w : CommandWord) : BitVec 8 := BitVec.ofNat 8 w

/-- The format field: bits 15..8. -/
def wordFormat (w : CommandWord) : BitVec 8 := BitVec.ofNat 8 (w / 256)

/-- The operand field: the bits from 16 on. -/
def wordOperand (w : CommandWord) : Nat := w / 65536

/-- A 16-bit operand (`sample`, `v`): bits 15..0 of the operand field. -/
def opSample (o : Nat) : Sample := BitVec.ofNat 16 o

/-- A one-bit operand after a 16-bit one (`haveSync`): bit 16 of the operand field. -/
def opFlag (o : Nat) : Bool := o.testBit 16

/-- The dibit operand `d` of a slot operation: bits 1..0 of the operand field. -/
def opDibit (o : Nat) : Dibit := BitVec.ofNat 2 o

/-- The offset operand `k` of a slot operation: bits 7..2 of the operand field. -/
def opOffset (o : Nat) : BitVec 6 := BitVec.ofNat 6 (o / 4)

/-- A 660-bit operand: bits 659..0 of the operand field. -/
def opBlock (o : Nat) : Block := BitVec.ofNat 660 o

/-- One row of the opcode table: mask, match and the instruction with its operands. -/
structure DecodeRow where
  mask : BitVec 8
  code : BitVec 8
  make : Nat → Instr

/-- The rows of format DISPATCH (7 bits). A mask also demands that the bits above the format's width are 0. -/
def dispatchRows : List DecodeRow :=
  [ ⟨0xF0, 0x00, fun _ => .fsStep⟩
  , ⟨0xFF, 0x10, fun o => .dmrvSlot0 (opDibit o) (opOffset o)⟩
  , ⟨0xFF, 0x11, fun o => .dmrvSlot1 (opDibit o) (opOffset o)⟩
  , ⟨0xFF, 0x12, fun o => .dmrvSlot2 (opDibit o) (opOffset o)⟩
  , ⟨0xFF, 0x13, fun o => .dmrvSlot3 (opDibit o) (opOffset o)⟩
  , ⟨0xFF, 0x14, fun o => .dmrvSlot4 (opDibit o) (opOffset o)⟩
  , ⟨0xFF, 0x15, fun o => .dmrvSlot5 (opDibit o) (opOffset o)⟩
  , ⟨0xFF, 0x16, fun o => .dmrvSlot6 (opDibit o) (opOffset o)⟩
  , ⟨0xFF, 0x17, fun o => .dmrvSlot7 (opDibit o) (opOffset o)⟩
  , ⟨0xFF, 0x18, fun o => .dmrvSlot8 (opDibit o) (opOffset o)⟩
  , ⟨0xFF, 0x19, fun o => .dmrvSlot9 (opDibit o) (opOffset o)⟩
  , ⟨0xFF, 0x1A, fun o => .dmrvSlot10 (opDibit o) (opOffset o)⟩
  , ⟨0xFF, 0x1B, fun o => .dmrvTail (opDibit o) (opOffset o)⟩
  , ⟨0xF0, 0x20, fun _ => .dmrdStep⟩
  , ⟨0xFF, 0x30, fun _ => .dstvBit⟩
  , ⟨0xFF, 0x31, fun _ => .dstdBit⟩
  , ⟨0xF0, 0x40, fun _ => .dsthBit⟩
  , ⟨0xF0, 0x50, fun _ => .dispatchReserved5⟩
  , ⟨0xE0, 0x60, fun _ => .dispatchReserved67⟩ ]

/-- The rows of format FTYPE (6 bits). A mask also demands that the bits above the format's width are 0. -/
def ftypeRows : List DecodeRow :=
  [ ⟨0xFF, 0x00, fun _ => .ftypeP25p1⟩
  , ⟨0xFF, 0x01, fun _ => .ftypeP25p1Inv⟩
  , ⟨0xFF, 0x02, fun _ => .ftypeX2tdmaData⟩
  , ⟨0xFF, 0x03, fun _ => .ftypeX2tdmaVoiceInv⟩
  , ⟨0xFF, 0x04, fun _ => .ftypeX2tdmaVoice⟩
  , ⟨0xFF, 0x05, fun _ => .ftypeX2tdmaDataInv⟩
  , ⟨0xFF, 0x06, fun _ => .ftypeDstar⟩
  , ⟨0xFF, 0x07, fun _ => .ftypeDstarInv⟩
  , ⟨0xFF, 0x08, fun _ => .ftypeNxdnVoice⟩
  , ⟨0xFF, 0x09, fun _ => .ftypeNxdnVoiceInv⟩
  , ⟨0xFF, 0x0A, fun _ => .ftypeDmrData⟩
  , ⟨0xFF, 0x0B, fun _ => .ftypeDmrVoiceInv⟩
  , ⟨0xFF, 0x0C, fun _ => .ftypeDmrVoice⟩
  , ⟨0xFF, 0x0D, fun _ => .ftypeDmrDataInv⟩
  , ⟨0xFF, 0x0E, fun _ => .ftypeProvoice⟩
  , ⟨0xFF, 0x0F, fun _ => .ftypeProvoiceInv⟩
  , ⟨0xFF, 0x10, fun _ => .ftypeNxdnData⟩
  , ⟨0xFF, 0x11, fun _ => .ftypeNxdnDataInv⟩
  , ⟨0xFF, 0x12, fun _ => .ftypeDstarhd⟩
  , ⟨0xFF, 0x13, fun _ => .ftypeDstarhdInv⟩
  , ⟨0xFF, 0x3F, fun _ => .ftypeNone⟩ ]

/-- The rows of format UOP (5 bits). A mask also demands that the bits above the format's width are 0. -/
def uopRows : List DecodeRow :=
  [ ⟨0xFF, 0x00, fun o => .uopStrPush (opSample o) (opFlag o)⟩
  , ⟨0xFF, 0x01, fun _ => .uopMajVote⟩
  , ⟨0xFF, 0x02, fun o => .uopFsStep (opSample o)⟩
  , ⟨0xFF, 0x03, fun _ => .uopFsNocarrier⟩
  , ⟨0xFF, 0x04, fun _ => .uopDbtNext⟩
  , ⟨0xFF, 0x05, fun o => .uopDscXor660 (opBlock o)⟩
  , ⟨0xFF, 0x06, fun o => .uopDilPerm660 (opBlock o)⟩
  , ⟨0xFF, 0x07, fun o => .uopVitDecode (opBlock o)⟩
  , ⟨0xFF, 0x08, fun _ => .uopDmrvEnter⟩
  , ⟨0xFF, 0x09, fun _ => .uopDmrvStep⟩
  , ⟨0xFF, 0x0A, fun _ => .uopDmrdEnter⟩
  , ⟨0xFF, 0x0B, fun _ => .uopDmrdStep⟩
  , ⟨0xFF, 0x0C, fun _ => .uopDstEnter⟩
  , ⟨0xFF, 0x0D, fun _ => .uopDstvBit⟩
  , ⟨0xFF, 0x0E, fun _ => .uopDstdBit⟩
  , ⟨0xFF, 0x0F, fun _ => .uopDsthEnter⟩
  , ⟨0xFF, 0x10, fun _ => .uopDsthBit⟩
  , ⟨0xFF, 0x11, fun _ => .uopDsthDecode⟩
  , ⟨0xFF, 0x12, fun _ => .uopOrcTosearch⟩
  , ⟨0xFF, 0x13, fun o => .uopOrcPush (opSample o)⟩
  , ⟨0xFF, 0x14, fun _ => .uopOrcReset⟩ ]

/-- The rows of format RFMOD (2 bits). A mask also demands that the bits above the format's width are 0. -/
def rfmodRows : List DecodeRow :=
  [ ⟨0xFF, 0x00, fun _ => .rfmodC4fm⟩
  , ⟨0xFF, 0x01, fun _ => .rfmodQpsk⟩
  , ⟨0xFF, 0x02, fun _ => .rfmodGfsk⟩
  , ⟨0xFF, 0x03, fun _ => .rfmodReserved⟩ ]

/-- The rows of format WENT (3 bits). A mask also demands that the bits above the format's width are 0. -/
def wentRows : List DecodeRow :=
  [ ⟨0xFF, 0x00, fun _ => .wentDigit0⟩
  , ⟨0xFF, 0x01, fun _ => .wentDigit1⟩
  , ⟨0xFF, 0x02, fun _ => .wentDigit2⟩
  , ⟨0xFF, 0x03, fun _ => .wentDigit3⟩
  , ⟨0xFF, 0x04, fun _ => .wentE⟩ ]

/-- The rows of format SLOTLIGHT (2 bits). A mask also demands that the bits above the format's width are 0. -/
def slotlightRows : List DecodeRow :=
  [ ⟨0xFF, 0x00, fun _ => .slotlightIdle⟩
  , ⟨0xFF, 0x01, fun _ => .slotlightData⟩
  , ⟨0xFF, 0x02, fun _ => .slotlightVoice⟩
  , ⟨0xFF, 0x03, fun _ => .slotlightReserved⟩ ]

/-- The rows of format DIBIT (2 bits). A mask also demands that the bits above the format's width are 0. -/
def dibitRows : List DecodeRow :=
  [ ⟨0xFF, 0x01, fun _ => .dibitRawAboveUmid⟩
  , ⟨0xFF, 0x00, fun _ => .dibitRawCenterToUmid⟩
  , ⟨0xFF, 0x02, fun _ => .dibitRawLmidToCenter⟩
  , ⟨0xFF, 0x03, fun _ => .dibitRawBelowLmid⟩ ]

/-- The rows of format BURSTTYPE (4 bits). A mask also demands that the bits above the format's width are 0. -/
def burstRows : List DecodeRow :=
  [ ⟨0xFF, 0x00, fun _ => .burstPiHeader⟩
  , ⟨0xFF, 0x01, fun _ => .burstVoiceLcHeader⟩
  , ⟨0xFF, 0x02, fun _ => .burstTerminatorLc⟩
  , ⟨0xFF, 0x03, fun _ => .burstCsbk⟩
  , ⟨0xFF, 0x04, fun _ => .burstMbcHeader⟩
  , ⟨0xFF, 0x05, fun _ => .burstMbcCont⟩
  , ⟨0xFF, 0x06, fun _ => .burstDataHeader⟩
  , ⟨0xFF, 0x07, fun _ => .burstRate12Data⟩
  , ⟨0xFF, 0x08, fun _ => .burstRate34Data⟩
  , ⟨0xFF, 0x09, fun _ => .burstIdle⟩
  , ⟨0xFF, 0x0A, fun _ => .burstRate1Data⟩ ]

/-- The rows of format CONDITION (4 bits). A mask also demands that the bits above the format's width are 0. -/
def conditionRows : List DecodeRow :=
  [ ⟨0xFF, 0x01, fun _ => .condNosync⟩
  , ⟨0xFF, 0x02, fun _ => .condCarrierloss⟩
  , ⟨0xFF, 0x03, fun _ => .condBitslip⟩
  , ⟨0xFF, 0x04, fun _ => .condSyncmissexceeded⟩
  , ⟨0xFF, 0x05, fun _ => .condEmptywindow⟩
  , ⟨0xFF, 0x06, fun _ => .condFramedone⟩
  , ⟨0xFF, 0x07, fun _ => .condEndoftx⟩
  , ⟨0xFF, 0x08, fun _ => .condForeignsync⟩ ]

/-- The rows of a format byte. -/
def formatRows (fmt : BitVec 8) : Option (List DecodeRow) :=
  match fmt.toNat with
  | 0 => some dispatchRows
  | 1 => some ftypeRows
  | 2 => some uopRows
  | 3 => some rfmodRows
  | 4 => some wentRows
  | 5 => some slotlightRows
  | 6 => some dibitRows
  | 7 => some burstRows
  | 8 => some conditionRows
  | _ => none

/-- The first row whose pattern the code has (the rows of one format do not overlap). -/
def findRow (code : BitVec 8) : List DecodeRow → Option DecodeRow
  | [] => none
  | r :: rs => if code &&& r.mask = r.code then some r else findRow code rs

/-- How many bits of the operand field an instruction uses. -/
def operandWidth : Instr → Nat
  | .dmrvSlot0 _ _ => 8
  | .dmrvSlot1 _ _ => 8
  | .dmrvSlot2 _ _ => 8
  | .dmrvSlot3 _ _ => 8
  | .dmrvSlot4 _ _ => 8
  | .dmrvSlot5 _ _ => 8
  | .dmrvSlot6 _ _ => 8
  | .dmrvSlot7 _ _ => 8
  | .dmrvSlot8 _ _ => 8
  | .dmrvSlot9 _ _ => 8
  | .dmrvSlot10 _ _ => 8
  | .dmrvTail _ _ => 8
  | .uopStrPush _ _ => 17
  | .uopFsStep _ => 16
  | .uopDscXor660 _ => 660
  | .uopDilPerm660 _ => 660
  | .uopVitDecode _ => 660
  | .uopOrcPush _ => 16
  | _ => 0

/-- The instruction of a command word, or why there is none: total on all words. -/
def decode (w : CommandWord) : Except DecodeError Instr :=
  match formatRows (wordFormat w) with
  | none => .error (.unknownFormat (wordFormat w))
  | some rows =>
    match findRow (wordCode w) rows with
    | none => .error (.reservedCode (wordFormat w) (wordCode w))
    | some r =>
      let i := r.make (wordOperand w)
      if i.wf = false then .error .illFormed
      else if wordOperand w >>> operandWidth i = 0 then .ok i
      else .error .strayBits

/-- A command word from its three fields. -/
def packWord (code fmt : BitVec 8) (operand : Nat) : CommandWord := code.toNat + 256 * fmt.toNat + 65536 * operand

/-- The operand field of a 16-bit operand. -/
def sampleOperand (v : Sample) : Nat := v.toNat

/-- The operand field of a 16-bit operand followed by a flag. -/
def sampleFlagOperand (v : Sample) (b : Bool) : Nat := v.toNat + 65536 * b.toNat

/-- The operand field of a dibit and an offset. -/
def slotOperand (d : Dibit) (k : BitVec 6) : Nat := d.toNat + 4 * k.toNat

/-- The operand field of a 660-bit operand. -/
def blockOperand (b : Block) : Nat := b.toNat

/-- The command word of an instruction: its row's match value, its format and its operands, all other bits 0. -/
def encode : Instr → CommandWord
  | .fsStep => packWord 0x00 0 0
  | .dmrvSlot0 d k => packWord 0x10 0 (slotOperand d k)
  | .dmrvSlot1 d k => packWord 0x11 0 (slotOperand d k)
  | .dmrvSlot2 d k => packWord 0x12 0 (slotOperand d k)
  | .dmrvSlot3 d k => packWord 0x13 0 (slotOperand d k)
  | .dmrvSlot4 d k => packWord 0x14 0 (slotOperand d k)
  | .dmrvSlot5 d k => packWord 0x15 0 (slotOperand d k)
  | .dmrvSlot6 d k => packWord 0x16 0 (slotOperand d k)
  | .dmrvSlot7 d k => packWord 0x17 0 (slotOperand d k)
  | .dmrvSlot8 d k => packWord 0x18 0 (slotOperand d k)
  | .dmrvSlot9 d k => packWord 0x19 0 (slotOperand d k)
  | .dmrvSlot10 d k => packWord 0x1A 0 (slotOperand d k)
  | .dmrvTail d k => packWord 0x1B 0 (slotOperand d k)
  | .dmrdStep => packWord 0x20 0 0
  | .dstvBit => packWord 0x30 0 0
  | .dstdBit => packWord 0x31 0 0
  | .dsthBit => packWord 0x40 0 0
  | .dispatchReserved5 => packWord 0x50 0 0
  | .dispatchReserved67 => packWord 0x60 0 0
  | .ftypeP25p1 => packWord 0x00 1 0
  | .ftypeP25p1Inv => packWord 0x01 1 0
  | .ftypeX2tdmaData => packWord 0x02 1 0
  | .ftypeX2tdmaVoiceInv => packWord 0x03 1 0
  | .ftypeX2tdmaVoice => packWord 0x04 1 0
  | .ftypeX2tdmaDataInv => packWord 0x05 1 0
  | .ftypeDstar => packWord 0x06 1 0
  | .ftypeDstarInv => packWord 0x07 1 0
  | .ftypeNxdnVoice => packWord 0x08 1 0
  | .ftypeNxdnVoiceInv => packWord 0x09 1 0
  | .ftypeDmrData => packWord 0x0A 1 0
  | .ftypeDmrVoiceInv => packWord 0x0B 1 0
  | .ftypeDmrVoice => packWord 0x0C 1 0
  | .ftypeDmrDataInv => packWord 0x0D 1 0
  | .ftypeProvoice => packWord 0x0E 1 0
  | .ftypeProvoiceInv => packWord 0x0F 1 0
  | .ftypeNxdnData => packWord 0x10 1 0
  | .ftypeNxdnDataInv => packWord 0x11 1 0
  | .ftypeDstarhd => packWord 0x12 1 0
  | .ftypeDstarhdInv => packWord 0x13 1 0
  | .ftypeNone => packWord 0x3F 1 0
  | .uopStrPush v b => packWord 0x00 2 (sampleFlagOperand v b)
  | .uopMajVote => packWord 0x01 2 0
  | .uopFsStep v => packWord 0x02 2 (sampleOperand v)
  | .uopFsNocarrier => packWord 0x03 2 0
  | .uopDbtNext => packWord 0x04 2 0
  | .uopDscXor660 b => packWord 0x05 2 (blockOperand b)
  | .uopDilPerm660 b => packWord 0x06 2 (blockOperand b)
  | .uopVitDecode b => packWord 0x07 2 (blockOperand b)
  | .uopDmrvEnter => packWord 0x08 2 0
  | .uopDmrvStep => packWord 0x09 2 0
  | .uopDmrdEnter => packWord 0x0A 2 0
  | .uopDmrdStep => packWord 0x0B 2 0
  | .uopDstEnter => packWord 0x0C 2 0
  | .uopDstvBit => packWord 0x0D 2 0
  | .uopDstdBit => packWord 0x0E 2 0
  | .uopDsthEnter => packWord 0x0F 2 0
  | .uopDsthBit => packWord 0x10 2 0
  | .uopDsthDecode => packWord 0x11 2 0
  | .uopOrcTosearch => packWord 0x12 2 0
  | .uopOrcPush v => packWord 0x13 2 (sampleOperand v)
  | .uopOrcReset => packWord 0x14 2 0
  | .rfmodC4fm => packWord 0x00 3 0
  | .rfmodQpsk => packWord 0x01 3 0
  | .rfmodGfsk => packWord 0x02 3 0
  | .rfmodReserved => packWord 0x03 3 0
  | .wentDigit0 => packWord 0x00 4 0
  | .wentDigit1 => packWord 0x01 4 0
  | .wentDigit2 => packWord 0x02 4 0
  | .wentDigit3 => packWord 0x03 4 0
  | .wentE => packWord 0x04 4 0
  | .slotlightIdle => packWord 0x00 5 0
  | .slotlightData => packWord 0x01 5 0
  | .slotlightVoice => packWord 0x02 5 0
  | .slotlightReserved => packWord 0x03 5 0
  | .dibitRawAboveUmid => packWord 0x01 6 0
  | .dibitRawCenterToUmid => packWord 0x00 6 0
  | .dibitRawLmidToCenter => packWord 0x02 6 0
  | .dibitRawBelowLmid => packWord 0x03 6 0
  | .burstPiHeader => packWord 0x00 7 0
  | .burstVoiceLcHeader => packWord 0x01 7 0
  | .burstTerminatorLc => packWord 0x02 7 0
  | .burstCsbk => packWord 0x03 7 0
  | .burstMbcHeader => packWord 0x04 7 0
  | .burstMbcCont => packWord 0x05 7 0
  | .burstDataHeader => packWord 0x06 7 0
  | .burstRate12Data => packWord 0x07 7 0
  | .burstRate34Data => packWord 0x08 7 0
  | .burstIdle => packWord 0x09 7 0
  | .burstRate1Data => packWord 0x0A 7 0
  | .condNosync => packWord 0x01 8 0
  | .condCarrierloss => packWord 0x02 8 0
  | .condBitslip => packWord 0x03 8 0
  | .condSyncmissexceeded => packWord 0x04 8 0
  | .condEmptywindow => packWord 0x05 8 0
  | .condFramedone => packWord 0x06 8 0
  | .condEndoftx => packWord 0x07 8 0
  | .condForeignsync => packWord 0x08 8 0

/-- The number `w` cut to `nbits` bits as a command word, every bit above 0. -/
def tableWord (nbits w : Nat) : CommandWord := w % 2 ^ nbits

/-- What the decoder reads from an instruction whose bits are `w`, numbered as spec/opcode_table.json numbers them. A row's
word alone carries no format, so one byte is read in format 0, DISPATCH (notes/assumptions/2.md). -/
def decodeTableWord (nbits w : Nat) : Option Instr := (decode (tableWord nbits w)).toOption

end Sys2Proof
end

