-- ==== Sys2Proof/Machine/Rom.lean ====
section
/-! DEFINITION. The default contents of the ROMs (spec/20_memory.md R46 to R51; all but the DMR base-station voice
pattern are the spec's own defaults, 93_implementation_defined.md G1 to G6) and the decided configuration (R5). -/

namespace Sys2Proof.Machine

/-- Quaternary-digit text (R66) from a list of digits. -/
def digits (l : List Nat) : List Dibit := l.map (BitVec.ofNat 2)

/-- Pattern of `ROM.SYNC` row 0 (R46): 111113113311333313133333. -/
def p25p1SyncPattern : List Dibit :=
  digits [1, 1, 1, 1, 1, 3, 1, 1, 3, 3, 1, 1, 3, 3, 3, 3, 1, 3, 1, 3, 3, 3, 3, 3]

/-- Pattern of `ROM.SYNC` row 1 (R46): 333331331133111131311111. -/
def invP25p1SyncPattern : List Dibit :=
  digits [3, 3, 3, 3, 3, 1, 3, 3, 1, 1, 3, 3, 1, 1, 1, 1, 3, 1, 3, 1, 1, 1, 1, 1]

/-- Pattern of `ROM.SYNC` row 6 (R46): 313333111331131131331131. -/
def dmrBsDataSyncPattern : List Dibit :=
  digits [3, 1, 3, 3, 3, 3, 1, 1, 1, 3, 3, 1, 1, 3, 1, 1, 3, 1, 3, 3, 1, 1, 3, 1]

/-- Pattern of `ROM.SYNC` row 7 (R46): 311131133313133331131113. -/
def dmrMsDataSyncPattern : List Dibit :=
  digits [3, 1, 1, 1, 3, 1, 1, 3, 3, 3, 1, 3, 1, 3, 3, 3, 3, 1, 1, 3, 1, 1, 1, 3]

/-- Pattern of `ROM.SYNC` row 8 (R46): 131111333113313313113313. -/
def dmrBsVoiceSyncPattern : List Dibit :=
  digits [1, 3, 1, 1, 1, 1, 3, 3, 3, 1, 1, 3, 3, 1, 3, 3, 1, 3, 1, 1, 3, 3, 1, 3]

/-- Pattern of `ROM.SYNC` row 9 (R46): 133313311131311113313331. -/
def dmrMsVoiceSyncPattern : List Dibit :=
  digits [1, 3, 3, 3, 1, 3, 3, 1, 1, 1, 3, 1, 3, 1, 1, 1, 1, 3, 3, 1, 3, 3, 3, 1]

/-- Pattern of `ROM.SYNC` row 16 (R46): 313131313133131113313111. -/
def dstarSyncPattern : List Dibit :=
  digits [3, 1, 3, 1, 3, 1, 3, 1, 3, 1, 3, 3, 1, 3, 1, 1, 1, 3, 3, 1, 3, 1, 1, 1]

/-- Pattern of `ROM.SYNC` row 17 (R46): 131313131311313331131333. -/
def invDstarSyncPattern : List Dibit :=
  digits [1, 3, 1, 3, 1, 3, 1, 3, 1, 3, 1, 1, 3, 1, 3, 3, 3, 1, 1, 3, 1, 3, 3, 3]

/-- Pattern of `ROM.SYNC` row 18 (R46): 131313131333133113131111. -/
def dstarHdPattern : List Dibit :=
  digits [1, 3, 1, 3, 1, 3, 1, 3, 1, 3, 3, 3, 1, 3, 3, 1, 1, 3, 1, 3, 1, 1, 1, 1]

/-- Pattern of `ROM.SYNC` row 19 (R46): 313131313111311331313333. -/
def invDstarHdPattern : List Dibit :=
  digits [3, 1, 3, 1, 3, 1, 3, 1, 3, 1, 1, 1, 3, 1, 1, 3, 3, 1, 3, 1, 3, 3, 3, 3]

/-- `ROM.SYNC` rows 0 to 9 (R46). -/
def romSyncFirst : List SyncRow :=
  [ ⟨.p25p1Sync, .p25p1, 24, some p25p1SyncPattern, 0, 0, false⟩
  , ⟨.invP25p1Sync, .p25p1, 24, some invP25p1SyncPattern, 1, 1, false⟩
  , ⟨.x2tdmaBsDataSync, .x2tdma, 24, none, 2, 3, false⟩
  , ⟨.x2tdmaMsDataSync, .x2tdma, 24, none, 2, 3, false⟩
  , ⟨.x2tdmaBsVoiceSync, .x2tdma, 24, none, 4, 5, false⟩
  , ⟨.x2tdmaMsVoiceSync, .x2tdma, 24, none, 4, 5, false⟩
  , ⟨.dmrBsDataSync, .dmr, 24, some dmrBsDataSyncPattern, 10, 11, false⟩
  , ⟨.dmrMsDataSync, .dmr, 24, some dmrMsDataSyncPattern, 10, 11, false⟩
  , ⟨.dmrBsVoiceSync, .dmr, 24, some dmrBsVoiceSyncPattern, 12, 13, false⟩
  , ⟨.dmrMsVoiceSync, .dmr, 24, some dmrMsVoiceSyncPattern, 12, 13, false⟩ ]

/-- `ROM.SYNC` rows 10 to 19 (R46). -/
def romSyncLast : List SyncRow :=
  [ ⟨.provoiceSync, .provoice, 32, none, 14, 14, false⟩
  , ⟨.invProvoiceSync, .provoice, 32, none, 15, 15, false⟩
  , ⟨.nxdnVoiceSync, .nxdn, 18, none, 8, 8, true⟩
  , ⟨.invNxdnVoiceSync, .nxdn, 18, none, 9, 9, true⟩
  , ⟨.nxdnDataSync, .nxdn, 18, none, 16, 16, true⟩
  , ⟨.invNxdnDataSync, .nxdn, 18, none, 17, 17, true⟩
  , ⟨.dstarSync, .dstar, 24, some dstarSyncPattern, 6, 6, false⟩
  , ⟨.invDstarSync, .dstar, 24, some invDstarSyncPattern, 7, 7, false⟩
  , ⟨.dstarHd, .dstar, 24, some dstarHdPattern, 18, 18, false⟩
  , ⟨.invDstarHd, .dstar, 24, some invDstarHdPattern, 19, 19, false⟩ ]

/-- `ROM.SYNC` (R46): rows with pattern `none` are OPEN. -/
def romSyncDefault : List SyncRow := romSyncFirst ++ romSyncLast

/-- `ROM.SCR` (R47): the output of the generator `scrGenerate`, entry i in bit i. -/
def romScrDefault : Nat :=
  0x6f3959836ba322049a7b87f1d8a5f542de72b306d746440934f70fe3b14bea85bce5660dae8c881269ee1fc76297d50b79cacc1b5d191024d3dc3f8ec52faa16f3959836ba322049a7b87f1d8a5f542de72b306d746440934f70

/-- The shift register of R47 (feedback x^7 + x^4 + 1), `q[0]` in bit 0: the next `n` outputs. -/
def scrGenerate : Nat → BitVec 7 → List Bool
  | 0, _ => []
  | n + 1, q =>
    let b := q.getLsbD 3 ^^ q.getLsbD 6
    b :: scrGenerate n ((q <<< 1) ||| (if b then 1 else 0))

/-- `ROM.RW` (R48). -/
def romRwDefault : List Nat :=
  [ 0, 1, 0, 1, 0, 1, 0, 1, 0, 1, 0, 1, 0, 1, 0, 1, 0, 1, 0, 1, 0, 1, 0, 2,
    0, 2, 0, 2, 0, 2, 0, 2, 0, 2, 0, 2 ]

/-- `ROM.RX` (R48). -/
def romRxDefault : List Nat :=
  [ 23, 10, 22, 9, 21, 8, 20, 7, 19, 6, 18, 5, 17, 4, 16, 3, 15, 2, 14, 1, 13, 0, 12, 10,
    11, 9, 10, 8, 9, 7, 8, 6, 7, 5, 6, 4 ]

/-- `ROM.RY` (R48). -/
def romRyDefault : List Nat :=
  [ 0, 2, 0, 2, 0, 2, 0, 2, 0, 3, 0, 3, 1, 3, 1, 3, 1, 3, 1, 3, 1, 3, 1, 3,
    1, 3, 1, 3, 1, 3, 1, 3, 1, 3, 1, 3 ]

/-- `ROM.RZ` (R48). -/
def romRzDefault : List Nat :=
  [ 5, 3, 4, 2, 3, 1, 2, 0, 1, 13, 0, 12, 22, 11, 21, 10, 20, 9, 19, 8, 18, 7, 17, 6,
    16, 5, 15, 4, 14, 3, 13, 2, 12, 1, 11, 0 ]

/-- `ROM.DW` (R49). -/
def romDwDefault : List Nat :=
  [ 0, 0, 3, 2, 1, 1, 0, 0, 1, 1, 0, 0, 3, 2, 1, 1, 3, 2, 1, 1, 0, 0, 3, 2,
    0, 0, 3, 2, 1, 1, 0, 0, 1, 1, 0, 0, 3, 2, 1, 1, 3, 2, 1, 1, 0, 0, 3, 2,
    0, 0, 3, 2, 1, 1, 0, 0, 1, 1, 0, 0, 3, 2, 1, 1, 3, 3, 2, 1, 0, 0, 3, 3 ]

/-- `ROM.DX` (R49). -/
def romDxDefault : List Nat :=
  [ 10, 22, 11, 9, 10, 22, 11, 23, 8, 20, 9, 21, 10, 8, 9, 21, 8, 6, 7, 19, 8, 20, 9, 7,
    6, 18, 7, 5, 6, 18, 7, 19, 4, 16, 5, 17, 6, 4, 5, 17, 4, 2, 3, 15, 4, 16, 5, 3,
    2, 14, 3, 1, 2, 14, 3, 15, 0, 12, 1, 13, 2, 0, 1, 13, 0, 12, 10, 11, 0, 12, 1, 13 ]

/-- `ROM.BURST` (R68). -/
def romBurstDefault : List (BitVec 4 × BurstSubtype) :=
  [ (0, .piHeader), (1, .voiceLcHeader), (2, .terminatorWithLc), (3, .csbk), (4, .mbcHeader),
    (5, .mbcContinuation), (6, .dataHeader), (7, .rate12Data), (8, .rate34Data), (9, .idle),
    (10, .rate1Data) ]

/-- `ROM.SLOT` (R51): the sizes of sub-slots 0 to 9. -/
def slotSizes : List Nat := [54, 12, 36, 18, 24, 18, 36, 12, 54, 24]

/-- `ROM.SLOT` (R51): the running sums. -/
def slotCum : List Nat := [54, 66, 102, 120, 144, 162, 198, 210, 264, 288]

/-- The decided configuration (R5). -/
def decided : Config where
  sps := 10
  center := 4
  winC4fm := ⟨3, 6⟩
  winQpsk := ⟨3, 5⟩
  winGfsk := ⟨3, 5⟩
  modThreshold := 26
  enP25p1 := false
  enX2tdma := false
  enDmr := true
  enProvoice := false
  enNxdn := false
  enDstar := true
  invX2tdma := false
  invDmr := false
  modC4fm := true
  modQpsk := true
  modGfsk := true
  nudgeInSync := true
  histCap := 899800
  hintWindow := 24
  carrierTimeout := 1800
  dmrVoiceBlocks := 6
  dmrVoiceEnd := 1848
  dmrDataSpan := 120
  dstarDataSyms := 24
  dstarSyncPeriod := 21
  dstarMissLimit := 3
  romSync := romSyncDefault
  romScr := romScrDefault
  romRw := romRwDefault
  romRx := romRxDefault
  romRy := romRyDefault
  romRz := romRzDefault
  romDw := romDwDefault
  romDx := romDxDefault
  bsVoice := dmrBsVoiceSyncPattern
  bsData := dmrBsDataSyncPattern
  msVoice := dmrMsVoiceSyncPattern
  msData := dmrMsDataSyncPattern
  dstarSync24 := 0xAAB468
  dstarEot24 := 0xAAAAAA
  dstarMask0 := 0x70
  dstarMask1 := 0x4F
  dstarMask2 := 0x93
  romBurst := romBurstDefault
  convCode := ⟨7, 5⟩
  cachSlotDibit := 2
  cachSlotBit := 1
  headerOffsets := ⟨3, 11, 19, 27, 35, 39⟩
  distinctPatterns := true

end Sys2Proof.Machine
end

