-- ==== Sys2Proof/Machine/State.lean ====
section
/-! DEFINITION. The state: every register and memory of spec/10_state.md R11 to R20 and spec/20_memory.md R41, grouped
by the unit that owns it, the configuration the spec's step function takes as an argument (R5), and what a step returns
(events, result). Plain data throughout. A register holds the bits of its stated width; signed ones (s2, s6, s10, s16,
s32) are two's complement, read with `toInt`. -/

namespace Sys2Proof.Machine

/-- Machine faults. The block has none: no trap, no vector, no halt (R215, R226, 93_implementation_defined.md, last
paragraph). -/
inductive Fault where
  deriving DecidableEq, Repr

/-- Why the model gives a step no successor (R232). All are SAFE: the machine of the spec has no such step. -/
inductive Refusal where
  /-- Raised by an arm of `exec` for an instruction without a meaning; no arm does. Safe. -/
  | notModelled (mnemonic : String)
  /-- `step`: the next command word is in no format, has no row or bits outside its format (R55, R75), or an offset that
  indexes past its space (R40). Safe. -/
  | undecodable (e : DecodeError)
  /-- Any operation: `CFG` violates R5 or the shape of a ROM. Safe. -/
  | illegalConfig
  /-- Any operation but `ORC.RESET`: `CFG` was changed without a RESET (R53, R242). Safe. -/
  | configChanged
  /-- Any operation but `ORC.RESET`: `fsm` is 5, 6 or 7 (R75). Safe. -/
  | reservedFsm
  /-- Any operation but `ORC.RESET`: `rf_mod` is 3 (R75). Safe. -/
  | reservedRfMod
  /-- Any operation but `ORC.RESET`: an entry of `W` is 5, 6 or 7 (R75). Safe. -/
  | reservedWent
  /-- Any operation but `ORC.RESET`: a slot light is 3 (R75). Safe. -/
  | reservedSlotlight
  /-- An operation that reads `synctype` finds it outside -1..19 (R75). Safe. -/
  | reservedSynctype
  /-- `DBT.NEXT` with `synctype = -1` (R116). Safe. -/
  | notLocked
  /-- A write pointer or a position is outside the space it indexes (R40). Safe. -/
  | indexRange
  /-- A look-back outside 1..`HIST_CAP` (R43). Safe. -/
  | historyRange
  /-- With the offset it is given a slot operation would index past an array or a ROM (R40). Safe. -/
  | slotOffset
  /-- `DISPATCH.RESERVED5`, `DISPATCH.RESERVED67`: a reserved dispatch word (R75). Safe. -/
  | reservedDispatch
  /-- `RFMOD.RESERVED`: the reserved modulation code (R63, R75). Safe. -/
  | reservedModulationCode
  /-- `SLOTLIGHT.RESERVED`: the reserved slot-light code (R69, R75). Safe. -/
  | reservedLightCode
  deriving DecidableEq, Repr

/-- The result of `FS.STEP` (R95, R110). -/
inductive SyncResult where
  | none
  | sync (code : Ftype)
  | noSync
  deriving DecidableEq, Repr

/-- The events of R73. -/
inductive Event where
  | sync (code : Ftype)
  | noSync
  | voiceFrame (tag : Ftype) (frame : Frame)
  | dmrData (slot : Bool) (slottype bursttype : BitVec 4)
  | bitSlip (pos : BitVec 7)
  | slowData (b0 b1 b2 : Byte) (descrambled : Bool)
  | endOfTx
  | dstarHeader (bytes : Vector Byte 41)
  deriving DecidableEq, Repr

/-- What an operation returned to its caller (R8, `call`). -/
inductive Ret where
  | none
  | symbol (v : Option Sample)
  | sync (r : SyncResult)
  | dibit (d : Dibit)
  | block (b : Block)
  | decoded (b : BitVec 330)
  deriving DecidableEq, Repr

/-- STR registers (R11). -/
structure StrRegs where
  sidx     : BitVec 9
  plen     : BitVec 9
  sum      : BitVec 32
  cnt      : BitVec 9
  jitter   : BitVec 10
  last     : Sample
  numflips : BitVec 16
  symbol   : Sample
  deriving DecidableEq, Repr

/-- MAJ registers (R12). -/
structure MajRegs where
  npos : BitVec 9
  nneg : BitVec 9
  maj  : BitVec 2
  deriving DecidableEq, Repr

/-- CAR registers (R13). -/
structure CarRegs where
  max          : Sample
  min          : Sample
  center       : Sample
  umid         : Sample
  lmid         : Sample
  rfMod        : BitVec 2
  carrier      : Bool
  synctype     : Ftype
  lastsynctype : Ftype
  deriving DecidableEq, Repr

/-- FS registers (R14); `window` is `W`, its entry 31 the newest. -/
structure FsRegs where
  lbuf        : Vector Sample 24
  lidx        : BitVec 5
  window      : Vector Went 32
  t           : BitVec 11
  lastt       : BitVec 5
  synctestPos : BitVec 11
  hint        : Ftype
  tHint       : BitVec 8
  deriving DecidableEq, Repr

/-- DMR registers (R17), the DMR position counters (R16) and the DMR parameter frames (R18). -/
structure DmrRegs where
  symbolIndex : BitVec 11
  dcount      : BitVec 7
  cach        : Vector Dibit 12
  cach2       : Vector Dibit 12
  syncf       : Vector Dibit 24
  sync2       : Vector Dibit 24
  currentslot : Bool
  mute        : Bool
  msMode      : Bool
  slotlight   : Vector (BitVec 2) 2
  slottype    : BitVec 4
  bursttype   : BitVec 4
  fr1         : Frame
  fr2         : Frame
  fr3         : Frame
  deriving DecidableEq, Repr

/-- D-STAR frame registers (R19), their position counter (R16) and parameter frame (R18). -/
structure DstRegs where
  dstPos : BitVec 7
  bitbuf : BitVec 24
  miss   : BitVec 8
  dphase : BitVec 8
  dfirst : Bool
  slow   : Vector Byte 3
  dfr    : Frame
  deriving DecidableEq, Repr

/-- D-STAR header registers (R20) and their position counter (R16). -/
structure HdrRegs where
  hdCnt  : BitVec 10
  header : Vector Byte 41
  deriving DecidableEq, Repr

/-- The dibit history (R41): the entries that are not 0, by rising index, and the write pointer. -/
structure Hist where
  cells : List (Nat × Dibit)
  wp    : Nat
  deriving DecidableEq, Repr

/-- The machine's state `ST` and, after it, the model's own fields (INVENTORY.md): the configuration, the configuration
as of the last RESET, the host's operations not yet taken, and the events and the result of the last step. -/
structure State where
  fsm      : BitVec 3
  str      : StrRegs
  maj      : MajRegs
  car      : CarRegs
  fs       : FsRegs
  dmr      : DmrRegs
  dst      : DstRegs
  hdr      : HdrRegs
  hist     : Hist
  cfg      : Config
  cfgReset : Config
  input    : List CommandWord
  events   : List Event
  ret      : Ret
  deriving DecidableEq, Repr

/-- The state after `ORC.RESET` under a configuration (R235): every register and memory at its reset value, no event, no
result; `CFG` is not state and is kept, and so is what the host has yet to issue. -/
def State.resetWith (c : Config) (input : List CommandWord) : State where
  fsm := 0
  str := { sidx := 0, plen := BitVec.ofNat 9 c.sps, sum := 0, cnt := 0, jitter := -1, last := 0, numflips := 0
           symbol := 0 }
  maj := { npos := 0, nneg := 0, maj := 0 }
  car := { max := s16 15000, min := s16 (-15000), center := 0, umid := s16 9375, lmid := s16 (-9375), rfMod := 0
           carrier := false, synctype := -1, lastsynctype := -1 }
  fs := { lbuf := Vector.replicate 24 0, lidx := 0, window := Vector.replicate 32 4, t := 0, lastt := 0
          synctestPos := 0, hint := -1, tHint := 0 }
  dmr := { symbolIndex := 0, dcount := 0, cach := Vector.replicate 12 0, cach2 := Vector.replicate 12 0
           syncf := Vector.replicate 24 0, sync2 := Vector.replicate 24 0, currentslot := false, mute := false
           msMode := false, slotlight := Vector.replicate 2 0, slottype := 0, bursttype := 0
           fr1 := 0, fr2 := 0, fr3 := 0 }
  dst := { dstPos := 0, bitbuf := 0, miss := 0, dphase := 0, dfirst := true, slow := Vector.replicate 3 0, dfr := 0 }
  hdr := { hdCnt := 0, header := Vector.replicate 41 0 }
  hist := { cells := [], wp := 0 }
  cfg := c
  cfgReset := c
  input := input
  events := []
  ret := .none

/-- The machine right after reset, under the decided configuration (R5, R235), with nothing issued by the host. -/
def State.reset : State := State.resetWith decided []

end Sys2Proof.Machine
end

