-- ==== Sys2Proof/Machine/Operands.lean ====
section
/-! DEFINITION. What an operation reads besides plain registers: the configuration's per-modulation and per-protocol
values, the bits of a dibit, and the combinational values majorBlock, posInFrame, slotIndex, k, sub and the dispatch
word (spec/10_state.md R16, spec/30_encoding.md R58, R60, R67, spec/45_dmr_slot.md R151). -/

namespace Sys2Proof.Machine

/-- `fsm` codes (R59). -/
abbrev lookingForSync : BitVec 3 := 0
abbrev processingDmrVoice : BitVec 3 := 1
abbrev processingDmrData : BitVec 3 := 2
abbrev processingDStar : BitVec 3 := 3
abbrev processingDStarHeader : BitVec 3 := 4

/-- `rf_mod` codes (R63). -/
abbrev rfC4fm : BitVec 2 := 0
abbrev rfQpsk : BitVec 2 := 1
abbrev rfGfsk : BitVec 2 := 2

/-- The empty window entry `E` (R65). -/
abbrev wentE : Went := 4

/-- Slot-light codes (R69). -/
abbrev lightIdle : BitVec 2 := 0
abbrev lightData : BitVec 2 := 1
abbrev lightVoice : BitVec 2 := 2

/-- `-1` in an `FTYPE` register: none (R61). -/
abbrev ftypeNone : Ftype := -1

/-- `WIN_LO[rf_mod]`, `WIN_HI[rf_mod]` (R5). The code 3 is refused before any use (R75). -/
def winOf (c : Config) (rf : BitVec 2) : Window :=
  if rf = rfQpsk then c.winQpsk else if rf = rfGfsk then c.winGfsk else c.winC4fm

/-- The enable flag of a protocol (R5, R46). -/
def protocolEnabled (c : Config) : Protocol → Bool
  | .p25p1 => c.enP25p1
  | .x2tdma => c.enX2tdma
  | .dmr => c.enDmr
  | .provoice => c.enProvoice
  | .nxdn => c.enNxdn
  | .dstar => c.enDstar

/-- The modulation-enable flag of a hypothesis (R98). -/
def modEnabled (c : Config) (rf : BitVec 2) : Bool :=
  if rf = rfQpsk then c.modQpsk else if rf = rfGfsk then c.modGfsk else c.modC4fm

/-- `d[1]`, the more significant bit of a dibit (R54 (a)). -/
def dibitHi (d : Dibit) : Bool := d.getLsbD 1

/-- `d[0]`. -/
def dibitLo (d : Dibit) : Bool := d.getLsbD 0

/-- The TDMA slot number in a CACH dibit (R155, R166): the bit `CFG` names, `d[1]` by default. -/
def slotBit (c : Config) (d : Dibit) : Bool := d.getLsbD c.cachSlotBit

/-- `majorBlock` (R151). -/
def majorBlock (idx : Nat) : Nat := idx / Config.majorBlockLen

/-- `posInFrame` (R151). -/
def posInFrame (idx : Nat) : Nat := idx % Config.majorBlockLen

/-- `slotIndex(p)` (R67): the smallest i with `p < cum[i]`, 10 when there is none. -/
def slotIndex (p : Nat) : Nat := slotCum.findIdx (fun c => p < c)

/-- The first position of a slot: `cum[i] - size[i]` (R67). -/
def slotStart (i : Nat) : Nat := slotCum.getD i 0 - slotSizes.getD i 0

/-- `k`, the offset inside the slot (R67, R151). -/
def slotOffsetOf (p : Nat) : Nat := p - slotStart (slotIndex p)

/-- `sub` in `fsm = 1` for a position (R60): 11 past the last decoded block, else the slot index. -/
def dmrSub (c : Config) (idx : Nat) : Nat :=
  if c.dmrVoiceBlocks ≤ majorBlock idx then 11 else slotIndex (posInFrame idx)

/-- `sub` (R60). -/
def subField (s : State) : Nat :=
  if s.fsm = processingDmrVoice then dmrSub s.cfg s.dmr.symbolIndex.toNat
  else if s.fsm = processingDStar then (if s.dst.dstPos.toNat < Config.voiceSegment then 0 else 1)
  else 0

/-- The dispatch word `fsm[2:0], sub[3:0]` (R58). -/
def dispatchWord (s : State) : BitVec 7 := s.fsm ++ BitVec.ofNat 4 (subField s)

/-- A constant of `ROM` addressed by entry number. -/
def romAt (t : List Nat) (i : Nat) : Nat := t.getD i 0

end Sys2Proof.Machine
end

