-- ==== Sys2Proof/Machine/Flags.lean ====
section
/-! DEFINITION. The flags (spec/10_state.md R22), the crossing and extremum comparisons (spec/40_symbol_timing.md R82),
and the read-only registers the host sees: C0 to C5 (R24, R25) and S0 to S8 (R29), each a function of the state. -/

namespace Sys2Proof.Machine

/-- `haveSync` (R202): a lock is in force. -/
def haveSync (s : State) : Bool := decide (s.fsm ≠ lookingForSync)

/-- `cross` (R82): a strict change of side of `center`. -/
def crossing (center last v : Sample) : Bool :=
  (decide (center.toInt < v.toInt) && decide (last.toInt < center.toInt)) ||
    (decide (v.toInt < center.toInt) && decide (center.toInt < last.toInt))

/-- A sample beyond the running levels: the extremum event of QPSK (R82). -/
def beyond (max min v : Sample) : Bool := decide (max.toInt < v.toInt) || decide (v.toInt < min.toInt)

/-- The timing event of a sample under a hypothesis (R82): extremum for QPSK, crossing otherwise. -/
def timingEvent (c : CarRegs) (last v : Sample) : Bool :=
  if c.rfMod = rfQpsk then beyond c.max c.min v else crossing c.center last v

/-- A flag as one bit. -/
def flag (b : Bool) : BitVec 1 := BitVec.ofBool b

/-- C0 `CFG_FLAGS` (R24). -/
def regC0 (c : Config) : BitVec 16 :=
  0#4 ++ flag c.nudgeInSync ++ flag c.modGfsk ++ flag c.modQpsk ++ flag c.modC4fm ++ flag c.invDmr ++
    flag c.invX2tdma ++ flag c.enDstar ++ flag c.enNxdn ++ flag c.enProvoice ++ flag c.enDmr ++ flag c.enX2tdma ++
    flag c.enP25p1

/-- C1 `CFG_MODTH` (R25). -/
def regC1 (c : Config) : BitVec 16 := BitVec.ofNat 16 c.modThreshold

/-- C2 `CFG_GEOM` (R25). -/
def regC2 (c : Config) : BitVec 16 := BitVec.ofNat 8 c.center ++ BitVec.ofNat 8 c.sps

/-- The packing of C3, C4, C5 `CFG_WIN[m]` (R25). -/
def regWindow (w : Window) : BitVec 16 := BitVec.ofNat 8 w.hi ++ BitVec.ofNat 8 w.lo

/-- The configuration registers C0 to C5 by number (R24, R25). -/
def configReg (c : Config) : Fin 6 → BitVec 16
  | 0 => regC0 c
  | 1 => regC1 c
  | 2 => regC2 c
  | 3 => regWindow c.winC4fm
  | 4 => regWindow c.winQpsk
  | 5 => regWindow c.winGfsk

/-- S0 `ST_SYNC` (R29). -/
def regS0 (s : State) : BitVec 16 :=
  flag (haveSync s) ++ flag s.car.carrier ++ s.car.rfMod ++ s.car.lastsynctype ++ s.car.synctype

/-- S1 `ST_DMR` (R29). -/
def regS1 (s : State) : BitVec 16 :=
  0#1 ++ s.dmr.bursttype ++ s.dmr.slottype ++ s.dmr.slotlight[1] ++ s.dmr.slotlight[0] ++ flag s.dmr.msMode ++
    flag s.dmr.mute ++ flag s.dmr.currentslot

/-- S2 `ST_DSTAR` (R29). -/
def regS2 (s : State) : BitVec 16 := 0#7 ++ flag s.dst.dfirst ++ s.dst.miss

/-- S8 `ST_MISC` (R29). -/
def regS8 (s : State) : BitVec 16 := 0#11 ++ s.maj.maj ++ s.fsm

/-- The status registers S0 to S8 by number (R29). -/
def statusReg (s : State) : Fin 9 → BitVec 16
  | 0 => regS0 s
  | 1 => regS1 s
  | 2 => regS2 s
  | 3 => s.car.max
  | 4 => s.car.min
  | 5 => s.car.center
  | 6 => s.car.umid
  | 7 => s.car.lmid
  | 8 => regS8 s

/-- The subtype name of a burst type, `none` for `Unknown` (R68, R167): observability only. -/
def burstName (c : Config) (b : BitVec 4) : Option BurstSubtype := (c.romBurst.find? (fun e => e.1 = b)).map (·.2)

/-- The fields of a D-STAR header (R72): views onto the 41 bytes, not translated and not checked. -/
structure HeaderFields where
  flags  : List Byte
  rpt2   : List Byte
  rpt1   : List Byte
  urcall : List Byte
  mycall : List Byte
  suffix : List Byte
  fcs    : List Byte
  deriving DecidableEq, Repr

/-- Bytes `lo .. lo + n - 1` of a header. Of a range that runs past byte 40 the view holds only the bytes the header has, so
it is shorter than `n` and may be empty (DESIGN CHOICE, notes/assumptions/18.md: the spec does not say). -/
def headerSlice (h : Vector Byte 41) (lo n : Nat) : List Byte := (h.toList.drop lo).take n

/-- The header's fields, each from its first byte and of the length R72 gives it, as far as the header goes
(`headerSlice`). -/
def headerFields (c : Config) (h : Vector Byte 41) : HeaderFields where
  flags := headerSlice h 0 3
  rpt2 := headerSlice h c.headerOffsets.rpt2 8
  rpt1 := headerSlice h c.headerOffsets.rpt1 8
  urcall := headerSlice h c.headerOffsets.urcall 8
  mycall := headerSlice h c.headerOffsets.mycall 8
  suffix := headerSlice h c.headerOffsets.suffix 4
  fcs := headerSlice h c.headerOffsets.fcs 2

end Sys2Proof.Machine
end

