-- ==== Sys2Proof/Machine/Ops.lean ====
section
/-! DEFINITION. The named operations over registers and memory that the meanings share: the legality of a configuration
and of a state's codes, the dibit history, parameter frames and windows, the threshold levels, the search registers, the
symbol boundary, the restart of the search, and TAKING A CONDITION (spec/60_exceptions.md), which is this block's
exception entry. There is no return from one (R224): what comes closest, the entry of the next lock, is in
Machine/Orchestrator.lean. -/

namespace Sys2Proof.Machine

/-! ### Legality of the configuration (R5, R46 to R51, 93_implementation_defined.md P1 to P11, U12) -/

/-- `0 <= WIN_LO <= WIN_HI <= SPS - 2` (R5). -/
def windowLegal (c : Config) (w : Window) : Bool := decide (w.lo ≤ w.hi) && decide (w.hi + 2 ≤ c.sps)

/-- The priority of a protocol in `ROM.SYNC` (R46, R102). -/
def protocolRank : Protocol → Nat
  | .p25p1 => 0
  | .x2tdma => 1
  | .dmr => 2
  | .provoice => 3
  | .nxdn => 4
  | .dstar => 5

/-- A frame-type code 0 to 19 (R61). -/
def codeLegal (code : Ftype) : Bool := decide (code.toNat < 20)

/-- The protocol whose flag admits a row, by the row's name (R46's enable column). -/
def rowProtocol : SyncName → Protocol
  | .p25p1Sync | .invP25p1Sync => .p25p1
  | .x2tdmaBsDataSync | .x2tdmaMsDataSync | .x2tdmaBsVoiceSync | .x2tdmaMsVoiceSync => .x2tdma
  | .dmrBsDataSync | .dmrMsDataSync | .dmrBsVoiceSync | .dmrMsVoiceSync => .dmr
  | .provoiceSync | .invProvoiceSync => .provoice
  | .nxdnVoiceSync | .invNxdnVoiceSync | .nxdnDataSync | .invNxdnDataSync => .nxdn
  | .dstarSync | .invDstarSync | .dstarHd | .invDstarHd => .dstar

/-- The shape of a `ROM.SYNC` row (R46): length 24, 32 or 18, a supplied pattern of that length, no enabled protocol
without its pattern, the protocol of its name, codes in 0..19, equal where the protocol has no inversion flag. A row may
have another length, other codes or another two-hit mark than its namesake in R46's table, a name may occur more than
once, and the rows of one protocol may stand in any order (DESIGN CHOICE, notes/assumptions/13.md). -/
def syncRowLegal (c : Config) (r : SyncRow) : Bool :=
  (r.len == 24 || r.len == 32 || r.len == 18) &&
    (match r.pattern with
      | none => !protocolEnabled c r.proto
      | some p => p.length == r.len) &&
    r.proto == rowProtocol r.name &&
    codeLegal r.code0 && codeLegal r.code1 &&
    (r.code0 == r.code1 || r.proto == .x2tdma || r.proto == .dmr)

/-- The rows an enabled protocol cannot be without (R46, 93_implementation_defined.md P4, P11, U8): every named row but the
two NXDN data rows, without which vector V25 enables NXDN (notes/assumptions/13.md). -/
def neededRows : List SyncName :=
  [ .p25p1Sync, .invP25p1Sync, .x2tdmaBsDataSync, .x2tdmaMsDataSync, .x2tdmaBsVoiceSync, .x2tdmaMsVoiceSync
  , .dmrBsDataSync, .dmrMsDataSync, .dmrBsVoiceSync, .dmrMsVoiceSync, .provoiceSync, .invProvoiceSync
  , .nxdnVoiceSync, .invNxdnVoiceSync, .dstarSync, .invDstarSync, .dstarHd, .invDstarHd ]

/-- No enabled protocol lacks a row it needs; that the row has its pattern is `syncRowLegal`. -/
def rowsPresent (c : Config) : Bool :=
  neededRows.all fun n => !protocolEnabled c (rowProtocol n) || c.romSync.any (·.name == n)

/-- Rows stand in the priority order (R46). -/
def rowsOrdered : List SyncRow → Bool
  | r :: r' :: rs => decide (protocolRank r.proto ≤ protocolRank r'.proto) && rowsOrdered (r' :: rs)
  | _ => true

/-- No two enabled rows of one length have one pattern (93_implementation_defined.md U12). -/
def patternsDistinct (c : Config) : List SyncRow → Bool
  | [] => true
  | r :: rs =>
    (!protocolEnabled c r.proto ||
      rs.all fun q => !(protocolEnabled c q.proto && q.len == r.len && q.pattern == r.pattern)) && patternsDistinct c rs

/-- The bit-inverted counterpart of a pattern: 1 and 3, and 0 and 2, are swapped (R66). -/
def inversePattern (p : List Dibit) : List Dibit := p.map (· ^^^ 2)

/-- The constant of `ROM.DMRSYNC` that is the same string as a row of `ROM.SYNC` (R50). -/
def dmrConstant (c : Config) : SyncName → Option (List Dibit)
  | .dmrBsVoiceSync => some c.bsVoice
  | .dmrBsDataSync => some c.bsData
  | .dmrMsVoiceSync => some c.msVoice
  | .dmrMsDataSync => some c.msData
  | _ => none

/-- `ROM.DMRSYNC` (R50): four constants of 24 characters, each the pattern of its rows of `ROM.SYNC`, each data constant the
inverse of the voice constant of its station kind. The base-station voice pattern may be another string than the document's
(DESIGN CHOICE, notes/assumptions/13.md). -/
def dmrConstantsLegal (c : Config) : Bool :=
  (c.bsVoice.length == 24 && c.msVoice.length == 24) &&
    c.bsData == inversePattern c.bsVoice && c.msData == inversePattern c.msVoice &&
    c.romSync.all fun r => (dmrConstant c r.name).all fun p => r.pattern == some p

/-- No number occurs twice; `seen` has the bits of the numbers met. -/
def distinctFrom (seen : Nat) : List Nat → Bool
  | [] => true
  | a :: l => !seen.testBit a && distinctFrom (seen ||| 2 ^ a) l

/-- The frame positions a pair of tables addresses (R70). -/
def frameTargets (ws xs : List Nat) : List Nat := List.zipWith (fun w x => 24 * w + x) ws xs

/-- An interleave table (R48, R49): `n` rows below 4 and `n` columns below 24. -/
def tableShape (n : Nat) (ws xs : List Nat) : Bool :=
  ws.length == n && xs.length == n && ws.all (· < 4) && xs.all (· < 24)

/-- `CFG` meets every constraint the model must check (R5) and every ROM has its shape (R46 to R51). -/
def configLegal (c : Config) : Bool :=
  decide (4 ≤ c.sps ∧ c.sps ≤ 255) && decide (0 < c.center ∧ c.center + 1 < c.sps) &&
    windowLegal c c.winC4fm && windowLegal c c.winQpsk && windowLegal c c.winGfsk &&
    decide (c.modThreshold ≤ 65535) && decide (1024 ≤ c.histCap) &&
    decide (c.dmrVoiceEnd ≤ 288 * (c.dmrVoiceBlocks + 1)) &&
    (c.dstarDataSyms == 24 || c.dstarDataSyms == 25) && decide (1 ≤ c.dstarSyncPeriod) &&
    decide (c.romSync.length ≤ 32) && c.romSync.all (syncRowLegal c) && rowsPresent c &&
    rowsOrdered c.romSync &&
    (!c.distinctPatterns || patternsDistinct c c.romSync) && decide (c.cachSlotDibit < 12 ∧ c.cachSlotBit < 2) &&
    c.romScr >>> 720 == 0 && tableShape 36 c.romRw c.romRx && tableShape 36 c.romRy c.romRz &&
    distinctFrom 0 (frameTargets c.romRw c.romRx ++ frameTargets c.romRy c.romRz) &&
    tableShape 72 c.romDw c.romDx && distinctFrom 0 (frameTargets c.romDw c.romDx) &&
    dmrConstantsLegal c

/-! ### What every operation but `ORC.RESET` demands of the state (R40, R53, R75, R232) -/

/-- The first refusal a state gives an operation, `none` for a state an operation runs in. -/
def guardOf (s : State) : Option Refusal :=
  if configLegal s.cfg = false then some .illegalConfig
  else if s.cfg ≠ s.cfgReset then some .configChanged
  else if 4 < s.fsm.toNat then some .reservedFsm
  else if s.car.rfMod = 3 then some .reservedRfMod
  else if s.fs.window.toList.any (fun e => 4 < e.toNat) then some .reservedWent
  else if s.dmr.slotlight.toList.any (fun e => e = 3) then some .reservedSlotlight
  else if 24 ≤ s.fs.lidx.toNat ∨ s.cfg.histCap ≤ s.hist.wp then some .indexRange
  else none

/-- An operation runs in `s`. -/
abbrev Ready (s : State) : Prop := guardOf s = none

/-- The outcome of an operation that may be refused, in a state that may refuse it. -/
def runIn (s : State) (k : Except Refusal State) : Host.Outcome State Fault Refusal :=
  match guardOf s with
  | some r => .refused r
  | none =>
    match k with
    | .ok t => .next t
    | .error r => .refused r

/-! ### Vectors, frames and bit vectors -/

/-- Bit `i` of a bit vector set to `b`. -/
def setBit {n : Nat} (v : BitVec n) (i : Nat) (b : Bool) : BitVec n :=
  if b then v ||| BitVec.twoPow n i else v &&& ~~~(BitVec.twoPow n i)

/-- `fr[w][x] <- b` (R70). -/
def frameSet (fr : Frame) (w x : Nat) (b : Bool) : Frame := setBit fr (24 * w + x) b

/-- `fr[w][x]` (R70). -/
def frameGet (fr : Frame) (w x : Nat) : Bool := fr.getLsbD (24 * w + x)

/-- The bit vector whose bit i is `f i`. -/
def ofBits (f : Nat → Bool) : (n : Nat) → BitVec n
  | 0 => 0#0
  | n + 1 => BitVec.cons (f n) (ofBits f n)

/-- The vector whose entry i is `f i`. -/
def tabulate {α : Type} (n : Nat) (f : Nat → α) : Vector α n := ⟨((List.range n).map f).toArray, by simp⟩

/-- A shift register step: entry 0 leaves, entry i+1 moves to i, `x` enters at the end (R45). -/
def shiftIn {α : Type} {n : Nat} (v : Vector α (n + 1)) (x : α) : Vector α (n + 1) :=
  ⟨(v.toList.tail ++ [x]).toArray, by simp⟩

/-! ### Numbers into registers (R7, R36) -/

/-- A number written to an unsigned register of `w` bits: itself where it fits (R36), else a free value. -/
def fitU (w : Nat) (r : Counter) (n : Nat) : BitVec w := if n < 2 ^ w then BitVec.ofNat w n else Config.pastWidth w r n

/-- A number written to a signed register of `w` bits: itself where it fits (R36), else a free value. -/
def fitS (w : Nat) (r : Counter) (x : Int) : BitVec w :=
  if -(2 ^ (w - 1)) ≤ x ∧ x < 2 ^ (w - 1) then BitVec.ofInt w x else Config.pastWidth w r x

/-- A counter's next value. -/
def countUp {w : Nat} (r : Counter) (v : BitVec w) : BitVec w := fitU w r (v.toNat + 1)

/-! ### The dibit history (R41 to R44) -/

/-- `MemRead(HIST[a], 2)`: an entry that is not listed reads 0, its reset value (R41). -/
def histRead : List (Nat × Dibit) → Nat → Dibit
  | [], _ => 0
  | (b, e) :: rest, a => if a = b then e else histRead rest a

/-- `MemWrite(HIST[a], 2, d)`, keeping the canonical form: indices rising, no entry 0. -/
def histWrite : List (Nat × Dibit) → Nat → Dibit → List (Nat × Dibit)
  | [], a, d => if d = 0 then [] else [(a, d)]
  | (b, e) :: rest, a, d =>
    if a < b then (if d = 0 then (b, e) :: rest else (a, d) :: (b, e) :: rest)
    else if a = b then (if d = 0 then rest else (a, d) :: rest)
    else (b, e) :: histWrite rest a d

/-- Every listed index is at least `lo`, the indices rise strictly, and no listed entry is 0. -/
def histWfFrom : Nat → List (Nat × Dibit) → Bool
  | _, [] => true
  | lo, (a, d) :: rest => decide (lo ≤ a) && decide (d ≠ 0) && histWfFrom (a + 1) rest

/-- The canonical form of the history. -/
def histWf (cells : List (Nat × Dibit)) : Bool := histWfFrom 0 cells

/-- `hist_push(d)` (R42). -/
def histPush (d : Dibit) (s : State) : State :=
  { s with hist := { cells := histWrite s.hist.cells s.hist.wp d, wp := (s.hist.wp + 1) % s.cfg.histCap } }

/-- The n-th most recently pushed dibit: `HIST[(wp - n) mod HIST_CAP]` (R43), for `1 <= n <= HIST_CAP`. -/
def lookBack (s : State) (n : Nat) : Dibit :=
  histRead s.hist.cells ((s.hist.wp + s.cfg.histCap - n) % s.cfg.histCap)

/-- `hist_back(n)` (R43): refused for n outside 1..`HIST_CAP`. -/
def histBack (s : State) (n : Nat) : Except Refusal Dibit :=
  if 1 ≤ n ∧ n ≤ s.cfg.histCap then .ok (lookBack s n) else .error .historyRange

/-! ### Events -/

/-- `emit E(..)` (R8): append to the event list of the current step. -/
def emit (e : Event) (s : State) : State := { s with events := s.events ++ [e] }

/-! ### Threshold levels (R103, R104, R108) -/

/-- `levels()` (R104). -/
def levels (c : CarRegs) : CarRegs :=
  let center := (c.max.toInt + c.min.toInt).tdiv 2
  { c with
    center := s16 center
    umid := s16 (((c.max.toInt - center) * 5).tdiv 8 + center)
    lmid := s16 (((c.min.toInt - center) * 5).tdiv 8 + center) }

/-- The greatest entry of a list of samples, starting from `m`. -/
def maxOf (m : Int) : List Sample → Int
  | [] => m
  | v :: l => maxOf (max m v.toInt) l

/-- The least entry of a list of samples, starting from `m`. -/
def minOf (m : Int) : List Sample → Int
  | [] => m
  | v :: l => minOf (min m v.toInt) l

/-- `recalibrate()` (R103): blend the extremes of all 24 entries of `lbuf` into `max` and `min`, then `levels()`. -/
def recalibrate (s : State) : State :=
  let l := s.fs.lbuf.toList
  let lmax := maxOf (s.fs.lbuf[0]).toInt l
  let lmin := minOf (s.fs.lbuf[0]).toInt l
  { s with
    car := levels { s.car with
      max := s16 ((s.car.max.toInt + lmax).tdiv 2)
      min := s16 ((s.car.min.toInt + lmin).tdiv 2) } }

/-! ### The search registers (R96 to R99, R106) -/

/-- The two-level character of a symbol: 1 above `center`, else 3 (R96). -/
def searchDibit (s : State) (v : Sample) : Dibit := if s.car.center.toInt < v.toInt then 1 else 3

/-- `observe(v)` (R96): into `lbuf`, and its character into the history. -/
def observe (v : Sample) (s : State) : State :=
  histPush (searchDibit s v)
    { s with
      fs.lbuf := s.fs.lbuf.setIfInBounds s.fs.lidx.toNat v
      fs.lidx := BitVec.ofNat 5 ((s.fs.lidx.toNat + 1) % 24) }

/-- The class the flip counter chooses (R98). -/
def hypothesisClass (c : Config) (flips : Nat) : BitVec 2 :=
  if c.modThreshold < flips then rfQpsk else if 18 < flips then rfGfsk else rfC4fm

/-- The write of a chosen class (R98): `rf_mod` takes it if its enable flag is 1; the flip counter is cleared. -/
def applyHypothesis (m : BitVec 2) (s : State) : State :=
  { s with
    car.rfMod := if modEnabled s.cfg m then m else s.car.rfMod
    str.numflips := 0 }

/-- `hypothesis()` (R98). -/
def hypothesis (s : State) : State := applyHypothesis (hypothesisClass s.cfg s.str.numflips.toNat) s

/-- `modulation_window()` (R97). -/
def modulationWindow (s : State) : State :=
  if s.fs.lastt = 23 then hypothesis { s with fs.lastt := 0 } else { s with fs.lastt := countUp .lastt s.fs.lastt }

/-- `shift_window(d)` (R99). -/
def shiftWindow (e : Went) (s : State) : State :=
  { s with
    fs.window := shiftIn s.fs.window e
    fs.t := if s.fs.t.toNat < 2047 then s.fs.t + 1 else s.fs.t }

/-- Hint ageing, R106 (a). -/
def ageHint (s : State) : State := if 0 ≤ s.fs.hint.toInt then { s with fs.tHint := countUp .tHint s.fs.tHint } else s

/-- `hint <- -1 ; t_hint <- 0` (R105, R106, R108). -/
def dropHint (s : State) : State := { s with fs.hint := ftypeNone, fs.tHint := 0 }

/-- `expire_hint()`, R106 (b). -/
def expireHint (s : State) : State :=
  if 0 ≤ s.fs.hint.toInt ∧ s.cfg.hintWindow ≤ s.fs.tHint.toNat then dropHint s else s

/-- What `FS.STEP` does with a symbol before it looks for a match (R95, R96 to R99, R106 (a)). -/
def searchIntake (v : Sample) (s : State) : State :=
  ageHint (shiftWindow ((searchDibit s v).setWidth 3) (modulationWindow (observe v s)))

/-- The count of a symbol without a confirmed match: `synctest_pos <- synctest_pos + 1` (R107). -/
def countMiss (s : State) : State := { s with fs.synctestPos := countUp .synctestPos s.fs.synctestPos }

/-! ### The symbol boundary (R86 to R88) -/

/-- `MAJ.VOTE()` (R87). -/
def majVote (s : State) : State :=
  { s with maj.maj := if s.maj.nneg < s.maj.npos then 1 else if s.maj.npos < s.maj.nneg then -1 else 0 }

/-- `nudge(haveSync)` (R86): the length of the next period. -/
def nudge (c : Config) (rf : BitVec 2) (j : Int) (sync : Bool) : Nat :=
  if sync = false ∨ c.nudgeInSync = true then
    if rf = rfQpsk then
      if 0 ≤ j ∧ j < c.center then c.sps - 1
      else if c.center < j ∧ j < c.sps then c.sps + 1
      else c.sps
    else
      if 0 < j ∧ j ≤ c.center then c.sps + 1
      else if c.center < j ∧ j < c.sps then c.sps - 1
      else c.sps
  else c.sps

/-- `clear()` (R88). -/
def clearPeriod (s : State) : State :=
  { s with str.sidx := 0, str.sum := 0, str.cnt := 0, maj.npos := 0, maj.nneg := 0, str.jitter := -1 }

/-- The writes at a symbol boundary after the average: vote, nudge, clear, in R80's order. -/
def boundary (sync : Bool) (s : State) : State :=
  let s := majVote s
  clearPeriod { s with str.plen := BitVec.ofNat 9 (nudge s.cfg s.car.rfMod s.str.jitter.toInt sync) }

/-! ### Restart of the search, loss of carrier (R108, R206) -/

/-- Fill the window with `E` (R206). -/
def emptyWindowEntries (s : State) : State := { s with fs.window := Vector.replicate 32 wentE }

/-- `ORC.TOSEARCH()` (R206). -/
def toSearch (s : State) : State :=
  { s with
    fsm := lookingForSync
    str.numflips := 0
    car := levels { s.car with synctype := ftypeNone }
    fs.t := 0
    fs.synctestPos := 0
    fs.lastt := 0
    fs.window := Vector.replicate 32 wentE }

/-- `slotlight[0] <- IDLE ; slotlight[1] <- IDLE` (R108). -/
def lightsIdle (s : State) : State := { s with dmr.slotlight := Vector.replicate 2 lightIdle }

/-- `FS.NOCARRIER()` (R108). -/
def noCarrier (s : State) : State :=
  { s with
    car := { s.car with
      max := s16 15000, min := s16 (-15000), center := 0, umid := s16 9375, lmid := s16 (-9375)
      carrier := false, synctype := ftypeNone, lastsynctype := ftypeNone }
    fs.hint := ftypeNone
    fs.tHint := 0
    str.jitter := -1
    dmr.mute := false
    dmr.msMode := false
    dmr.slotlight := Vector.replicate 2 lightIdle }

/-! ### Conditions (R215 to R226) -/

/-- The conditions of R216, in the order of their codes. -/
inductive Cond where
  | noSync | carrierLoss | bitSlip | syncMissExceeded | emptyWindow | frameDone | endOfTx | foreignSync
  deriving DecidableEq, Repr

/-- The code of a condition (R216). -/
def Cond.code : Cond → BitVec 4
  | .noSync => 1
  | .carrierLoss => 2
  | .bitSlip => 3
  | .syncMissExceeded => 4
  | .emptyWindow => 5
  | .frameDone => 6
  | .endOfTx => 7
  | .foreignSync => 8

/-- The orchestrator's part of a loss of carrier: the event, then the restart (R203, R218). -/
def reportNoSync (s : State) : State := toSearch (emit .noSync s)

/-- Taking a condition: the writes and the event listed for it, inside the current step (R215); nothing is saved and no
mode changes (R223).
* `NoSync` (R217): what `FS.STEP` writes for any symbol, here the symbol register's, and no event;
* `CarrierLoss` (R218): `FS.NOCARRIER`, the event, `ORC.TOSEARCH`;
* `BitSlip` (R219, R179): the event with the position, then `dst_pos` and `dfr` cleared;
* `SyncMissExceeded` (R221), `FrameDone` and `ForeignSync` (R222): `ORC.TOSEARCH`, no event of their own;
* `EmptyWindow` (R220): the normal boundary writes, and the symbol is 0;
* `EndOfTx` (R222): the event, then `ORC.TOSEARCH`. -/
def takeCondition : Cond → State → State
  | .noSync, s => countMiss (expireHint (searchIntake s.str.symbol s))
  | .carrierLoss, s => reportNoSync (noCarrier s)
  | .bitSlip, s => { emit (.bitSlip s.dst.dstPos) s with dst.dstPos := 0, dst.dfr := 0 }
  | .syncMissExceeded, s => toSearch s
  | .emptyWindow, s => { boundary (haveSync s) s with str.symbol := 0 }
  | .frameDone, s => toSearch s
  | .endOfTx, s => toSearch (emit .endOfTx s)
  | .foreignSync, s => toSearch s

/-! ### The host's next operation -/

/-- The next command word the host has issued, and the state in which its operation begins: the word taken, no event
and no result yet (R200, R208). -/
def takeInput (s : State) : Option (CommandWord × State) :=
  match s.input with
  | [] => none
  | w :: rest => some (w, { s with input := rest, events := [], ret := .none })

/-- No operation is issued: the block does nothing between steps. -/
def idle (s : State) : State := { s with events := [], ret := .none }

/-- A command word put where `takeInput` takes the next one. -/
def placeInput (w : CommandWord) (s : State) : State := { s with input := w :: s.input }

end Sys2Proof.Machine
end

