-- ==== Sys2Proof/Machine/Dibit.lean ====
section
/-! DEFINITION. The dibit extractor (spec/42_dibit_extractor.md). -/

namespace Sys2Proof.Machine

/-- A classified symbol: the raw dibit for the history and the logical dibit returned. -/
structure Slice where
  raw : Dibit
  ret : Dibit
  deriving DecidableEq, Repr

/-- `P2(s)` (R117). -/
def sliceP2 (c : CarRegs) (v : Sample) : Slice := if c.center.toInt < v.toInt then ⟨1, 0⟩ else ⟨3, 1⟩

/-- `P2I(s)` (R118). -/
def sliceP2I (c : CarRegs) (v : Sample) : Slice := if c.center.toInt < v.toInt then ⟨1, 1⟩ else ⟨3, 0⟩

/-- The value `P4` returns (R119). -/
def levelP4 (c : CarRegs) (v : Sample) : Dibit :=
  if c.center.toInt < v.toInt then (if c.umid.toInt < v.toInt then 1 else 0)
  else (if v.toInt < c.lmid.toInt then 3 else 2)

/-- `P4(s)` (R119). -/
def sliceP4 (c : CarRegs) (v : Sample) : Slice := ⟨levelP4 c v, levelP4 c v⟩

/-- The value `P4I` returns (R120). -/
def levelP4I (c : CarRegs) (v : Sample) : Dibit :=
  if c.center.toInt < v.toInt then (if c.umid.toInt < v.toInt then 3 else 2)
  else (if v.toInt < c.lmid.toInt then 1 else 0)

/-- `P4I(s)` (R120). -/
def sliceP4I (c : CarRegs) (v : Sample) : Slice := ⟨levelP4I c v ^^^ 2, levelP4I c v⟩

/-- The policy of a frame-type code (R116). -/
def slice (code : Ftype) (c : CarRegs) (v : Sample) : Slice :=
  if code ∈ ([6, 14, 18] : List Ftype) then sliceP2 c v
  else if code ∈ ([7, 15, 19] : List Ftype) then sliceP2I c v
  else if code ∈ ([1, 3, 5, 9, 11, 13] : List Ftype) then sliceP4I c v
  else sliceP4 c v

/-- `synctype` is none or a frame-type code (R61, R75). -/
def synctypeLegal (s : State) : Bool := decide (-1 ≤ s.car.synctype.toInt ∧ s.car.synctype.toInt ≤ 19)

/-- `DBT.NEXT()` (R116, R121): the state after it and the logical dibit; refused when no lock is in force (R116) or the
code is reserved (R75). -/
def dbtNext (s : State) : Except Refusal (State × Dibit) :=
  if s.car.synctype = ftypeNone then .error .notLocked
  else if synctypeLegal s = false then .error .reservedSynctype
  else
    let c := slice s.car.synctype s.car s.str.symbol
    .ok (histPush c.raw s, c.ret)

/-- `UOP.DBT.NEXT` (R116). -/
def execUopDbtNext (s : State) : Host.Outcome State Fault Refusal :=
  runIn s (match dbtNext s with
    | .ok (t, d) => .ok { t with ret := .dibit d }
    | .error r => .error r)

end Sys2Proof.Machine
end

