-- ==== Sys2Proof/Machine/Dmr.lean ====
section
/-! DEFINITION. The DMR slot demultiplexers (spec/45_dmr_slot.md). A slot operation `DMRV.SLOT<n>(d, k)` is a function of
the state; its DISPATCH row runs it on the operands d and k (R79), `DMRV.STEP` and `DMRV.ENTER` run it through
`process`. -/

namespace Sys2Proof.Machine

/-- `scatter(fr, i, d)` (R157). -/
def scatter (c : Config) (fr : Frame) (i : Nat) (d : Dibit) : Frame :=
  frameSet (frameSet fr (romAt c.romRw i) (romAt c.romRx i) (dibitHi d)) (romAt c.romRy i) (romAt c.romRz i) (dibitLo d)

/-- The sync-field character of a dibit: `d | 1` (R160). -/
def syncChar (d : Dibit) : Dibit := d ||| 1

/-- The light of the current TDMA slot (R165). -/
def setLight (l : BitVec 2) (s : State) : State :=
  { s with dmr.slotlight := s.dmr.slotlight.setIfInBounds s.dmr.currentslot.toNat l }

/-- `sync_eval()` (R165): against `ROM.DMRSYNC`, exactly; no match writes nothing. -/
def syncEval (s : State) : State :=
  let f := s.dmr.syncf.toList
  let s :=
    if f = s.cfg.bsData ∨ f = s.cfg.msData then setLight lightData { s with dmr.mute := true }
    else if f = s.cfg.bsVoice ∨ f = s.cfg.msVoice then setLight lightVoice { s with dmr.mute := false }
    else s
  if f = s.cfg.msData ∨ f = s.cfg.msVoice then { s with dmr.msMode := true }
  else if f = s.cfg.bsData ∨ f = s.cfg.bsVoice then { s with dmr.msMode := false }
  else s

/-- `DMRV.SLOT0(d, k)` (R154): discarded. -/
def slot0 (_d : Dibit) (_k : Nat) (s : State) : State := s

/-- `DMRV.SLOT1(d, k)` (R155): the CACH; by default bit 1 of its third dibit is the TDMA slot number. -/
def slot1 (d : Dibit) (k : Nat) (s : State) : State :=
  let s := { s with dmr.cach := s.dmr.cach.setIfInBounds k d }
  if k = s.cfg.cachSlotDibit then { s with dmr.currentslot := slotBit s.cfg d } else s

/-- `DMRV.SLOT2(d, k)` (R158): AMBE frame 1. -/
def slot2 (d : Dibit) (k : Nat) (s : State) : State :=
  { s with dmr.fr1 := scatter s.cfg (if k = 0 then 0 else s.dmr.fr1) k d }

/-- `DMRV.SLOT3(d, k)` (R159): AMBE frame 2, pairs 0 to 17. For an offset beyond them, which R159 leaves out, the pair
takes a free value (notes/assumptions/23.md). -/
def slot3 (d : Dibit) (k : Nat) (s : State) : State :=
  { s with dmr.fr2 :=
      if k < 18 then scatter s.cfg (if k = 0 then 0 else s.dmr.fr2) k d
      else scatter s.cfg s.dmr.fr2 k (Config.pairPastSlot d k s.dmr.fr2) }

/-- `DMRV.SLOT4(d, k)` (R160): the sync field, evaluated when it is complete. -/
def slot4 (d : Dibit) (k : Nat) (s : State) : State :=
  let s := { s with dmr.syncf := s.dmr.syncf.setIfInBounds k (syncChar d) }
  if k = 23 then syncEval s else s

/-- `DMRV.SLOT5(d, k)` (R161): AMBE frame 2, pairs 18 to 35, and the hand-off of frames 1 and 2. -/
def slot5 (d : Dibit) (k : Nat) (s : State) : State :=
  let s := { s with dmr.fr2 := scatter s.cfg s.dmr.fr2 (18 + k) d }
  if k = 17 ∧ s.dmr.mute = false then
    emit (.voiceFrame s.car.synctype s.dmr.fr2) (emit (.voiceFrame s.car.synctype s.dmr.fr1) s)
  else s

/-- `DMRV.SLOT6(d, k)` (R162): AMBE frame 3 and its hand-off. -/
def slot6 (d : Dibit) (k : Nat) (s : State) : State :=
  let s := { s with dmr.fr3 := scatter s.cfg (if k = 0 then 0 else s.dmr.fr3) k d }
  if k = 35 ∧ s.dmr.mute = false then emit (.voiceFrame s.car.synctype s.dmr.fr3) s else s

/-- `DMRV.SLOT7(d, k)` (R156): the CACH of the other TDMA slot. -/
def slot7 (d : Dibit) (k : Nat) (s : State) : State :=
  { s with dmr.cach2 := s.dmr.cach2.setIfInBounds k d }

/-- `DMRV.SLOT8(d, k)` (R154): discarded. -/
def slot8 (_d : Dibit) (_k : Nat) (s : State) : State := s

/-- `DMRV.SLOT9(d, k)` (R164): the second sync field, diagnostic only. -/
def slot9 (d : Dibit) (k : Nat) (s : State) : State :=
  { s with dmr.sync2 := s.dmr.sync2.setIfInBounds k (syncChar d) }

/-- `DMRV.SLOT10(d, k)` (R169): writes nothing. -/
def slot10 (_d : Dibit) (_k : Nat) (s : State) : State := s

/-- `DMRV.TAIL(d, k)` (R170): writes nothing. -/
def slotTail (_d : Dibit) (_k : Nat) (s : State) : State := s

/-- The slot operation that `sub` selects in `fsm = 1` (R58). -/
def slotOperation (sub : Nat) (d : Dibit) (k : Nat) (s : State) : State :=
  match sub with
  | 0 => slot0 d k s
  | 1 => slot1 d k s
  | 2 => slot2 d k s
  | 3 => slot3 d k s
  | 4 => slot4 d k s
  | 5 => slot5 d k s
  | 6 => slot6 d k s
  | 7 => slot7 d k s
  | 8 => slot8 d k s
  | 9 => slot9 d k s
  | 10 => slot10 d k s
  | _ => slotTail d k s

/-- `process(idx, d)` (R151). -/
def process (idx : Nat) (d : Dibit) (s : State) : State :=
  slotOperation (dmrSub s.cfg idx) d (slotOffsetOf (posInFrame idx)) s

/-- The replay of `DMRV.ENTER` (R152) over a list of positions. -/
def replay (x : Dibit) : List Nat → State → State
  | [], s => s
  | p :: ps, s => replay x ps (process p (lookBack s (144 - p) ^^^ x) s)

/-- `DMRV.ENTER()` (R152): the deepest look-back is 90. -/
def dmrvEnter (s : State) : Except Refusal State :=
  if synctypeLegal s = false then .error .reservedSynctype
  else
    match histBack s 90 with
    | .error r => .error r
    | .ok _ =>
      let x : Dibit := if s.car.synctype = 11 then 2 else 0
      let t := replay x (List.range' 54 90) { s with fsm := processingDmrVoice }
      .ok { t with dmr.symbolIndex := 144 }

/-- `DMRV.STEP()` (R153, R163). -/
def dmrvStep (s : State) : Except Refusal State :=
  match dbtNext s with
  | .error r => .error r
  | .ok (s, d) =>
    let s := process s.dmr.symbolIndex.toNat d s
    let s := { s with dmr.symbolIndex := countUp .symbolIndex s.dmr.symbolIndex }
    .ok (if s.cfg.dmrVoiceEnd ≤ s.dmr.symbolIndex.toNat then takeCondition .frameDone s else s)

/-- `h(n)` of `DMRD.ENTER` (R166): a look-back with the inversion of code 13 undone. -/
def dataBack (s : State) (n : Nat) : Dibit := lookBack s n ^^^ (if s.car.synctype = 13 then 2 else 0)

/-- `DMRD.ENTER()` (R166): the deepest look-back is 90. -/
def dmrdEnter (s : State) : Except Refusal State :=
  if synctypeLegal s = false then .error .reservedSynctype
  else
    match histBack s 90 with
    | .error r => .error r
    | .ok _ =>
      let h := dataBack s
      let t := syncEval { s with
        fsm := processingDmrData
        dmr.cach := tabulate 12 fun k => h (90 - k)
        dmr.currentslot := slotBit s.cfg (h (90 - s.cfg.cachSlotDibit))
        dmr.slottype := h 29 ++ h 28
        dmr.bursttype := h 27 ++ h 26
        dmr.syncf := tabulate 24 fun k => syncChar (h (24 - k)) }
      let t := emit (.dmrData t.dmr.currentslot t.dmr.slottype t.dmr.bursttype) t
      .ok { t with dmr.dcount := 0 }

/-- `DMRD.STEP()` (R168): the dibit is recorded and not used. -/
def dmrdStep (s : State) : Except Refusal State :=
  match dbtNext s with
  | .error r => .error r
  | .ok (s, _) =>
    let s := { s with dmr.dcount := countUp .dcount s.dmr.dcount }
    .ok (if s.cfg.dmrDataSpan ≤ s.dmr.dcount.toNat then takeCondition .frameDone s else s)

/-- A slot operation that indexes an array or a table with its operand: `k` must be below its `size` (R40). -/
def onOffset (size : Nat) (k : BitVec 6) (t : State) : Except Refusal State :=
  if offsetOk size k = true then .ok t else .error .slotOffset

/-- A slot operation that may hand off frames reads `synctype` when it does (R161, R162, R75). -/
def onHandOff (last : Nat) (k : BitVec 6) (s : State) (r : Except Refusal State) : Except Refusal State :=
  if k.toNat = last ∧ s.dmr.mute = false ∧ synctypeLegal s = false then .error .reservedSynctype else r

/-- `DMRV.SLOT0` (R154). -/
def execDmrvSlot0 (d : Dibit) (k : BitVec 6) (s : State) : Host.Outcome State Fault Refusal :=
  runIn s (.ok (slot0 d k.toNat s))

/-- `DMRV.SLOT1` (R155). -/
def execDmrvSlot1 (d : Dibit) (k : BitVec 6) (s : State) : Host.Outcome State Fault Refusal :=
  runIn s (onOffset 12 k (slot1 d k.toNat s))

/-- `DMRV.SLOT2` (R158). -/
def execDmrvSlot2 (d : Dibit) (k : BitVec 6) (s : State) : Host.Outcome State Fault Refusal :=
  runIn s (onOffset 36 k (slot2 d k.toNat s))

/-- `DMRV.SLOT3` (R159). -/
def execDmrvSlot3 (d : Dibit) (k : BitVec 6) (s : State) : Host.Outcome State Fault Refusal :=
  runIn s (onOffset 36 k (slot3 d k.toNat s))

/-- `DMRV.SLOT4` (R160). -/
def execDmrvSlot4 (d : Dibit) (k : BitVec 6) (s : State) : Host.Outcome State Fault Refusal :=
  runIn s (onOffset 24 k (slot4 d k.toNat s))

/-- `DMRV.SLOT5` (R161). -/
def execDmrvSlot5 (d : Dibit) (k : BitVec 6) (s : State) : Host.Outcome State Fault Refusal :=
  runIn s (onHandOff 17 k s (onOffset 18 k (slot5 d k.toNat s)))

/-- `DMRV.SLOT6` (R162). -/
def execDmrvSlot6 (d : Dibit) (k : BitVec 6) (s : State) : Host.Outcome State Fault Refusal :=
  runIn s (onHandOff 35 k s (onOffset 36 k (slot6 d k.toNat s)))

/-- `DMRV.SLOT7` (R156). -/
def execDmrvSlot7 (d : Dibit) (k : BitVec 6) (s : State) : Host.Outcome State Fault Refusal :=
  runIn s (onOffset 12 k (slot7 d k.toNat s))

/-- `DMRV.SLOT8` (R154). -/
def execDmrvSlot8 (d : Dibit) (k : BitVec 6) (s : State) : Host.Outcome State Fault Refusal :=
  runIn s (.ok (slot8 d k.toNat s))

/-- `DMRV.SLOT9` (R164). -/
def execDmrvSlot9 (d : Dibit) (k : BitVec 6) (s : State) : Host.Outcome State Fault Refusal :=
  runIn s (onOffset 24 k (slot9 d k.toNat s))

/-- `DMRV.SLOT10` (R169). -/
def execDmrvSlot10 (d : Dibit) (k : BitVec 6) (s : State) : Host.Outcome State Fault Refusal :=
  runIn s (.ok (slot10 d k.toNat s))

/-- `DMRV.TAIL` (R170). -/
def execDmrvTail (d : Dibit) (k : BitVec 6) (s : State) : Host.Outcome State Fault Refusal :=
  runIn s (.ok (slotTail d k.toNat s))

/-- The DISPATCH row `DMRD.STEP` (R168). -/
def execDmrdStep (s : State) : Host.Outcome State Fault Refusal := runIn s (dmrdStep s)

/-- `UOP.DMRV.ENTER` (R152). -/
def execUopDmrvEnter (s : State) : Host.Outcome State Fault Refusal := runIn s (dmrvEnter s)

/-- `UOP.DMRV.STEP` (R153). -/
def execUopDmrvStep (s : State) : Host.Outcome State Fault Refusal := runIn s (dmrvStep s)

/-- `UOP.DMRD.ENTER` (R166). -/
def execUopDmrdEnter (s : State) : Host.Outcome State Fault Refusal := runIn s (dmrdEnter s)

/-- `UOP.DMRD.STEP` (R168). -/
def execUopDmrdStep (s : State) : Host.Outcome State Fault Refusal := runIn s (dmrdStep s)

end Sys2Proof.Machine
end

