-- ==== Sys2Proof/Machine/Descramble.lean ====
section
/-! DEFINITION. The descrambler and the deinterleaver (spec/43_descrambler_deinterleaver.md): functions of the block and the
scramble table alone. The operations check the state first, as every operation does (notes/assumptions/15.md). -/

namespace Sys2Proof.Machine

/-- `DSC.XOR660(in)` (R125): `out[i] = in[i] ^ ROM.SCR[m]`, the index m starting at 0 and wrapping modulo 720. -/
def descramble (scr : Nat) (x : Block) : Block :=
  ofBits (fun i => x.getLsbD i ^^ scr.testBit (i % 720)) 660

/-- The next output index of the deinterleaver (R128). -/
def nextK (k : Nat) : Nat :=
  let k := k + 24
  if 672 ≤ k then k - 671 else if 660 ≤ k then k - 647 else k

/-- The deinterleaver's loop: `n` more input bits, the next one `i`, its output index `k`. -/
def deinterleaveFrom (x : Block) : (n i k : Nat) → Block → Block
  | 0, _, _, out => out
  | n + 1, i, k, out => deinterleaveFrom x n (i + 1) (nextK k) (setBit out k (x.getLsbD i))

/-- `DIL.PERM660(in)` (R128). -/
def deinterleave (x : Block) : Block := deinterleaveFrom x 660 0 0 0

/-- `UOP.DSC.XOR660` (R125): no error of its own; refused with every operation under an illegal or changed `CFG` (R232). -/
def execUopDscXor660 (input : Block) (s : State) : Host.Outcome State Fault Refusal :=
  runIn s (.ok { s with ret := .block (descramble s.cfg.romScr input) })

/-- `UOP.DIL.PERM660` (R128): no error of its own. -/
def execUopDilPerm660 (input : Block) (s : State) : Host.Outcome State Fault Refusal :=
  runIn s (.ok { s with ret := .block (deinterleave input) })

end Sys2Proof.Machine
end

