-- ==== Sys2Proof/Machine/Viterbi.lean ====
section
/-! DEFINITION. The Viterbi decoder (spec/44_viterbi.md). A trellis state is `2 * D2 + D1` (R135). The four path metrics
are natural numbers; the spec's u16 is never exceeded for N = 330 (R36). The working arrays are local (R21). -/

namespace Sys2Proof.Machine

/-- A trellis state (R135): bit 0 is `D1`, bit 1 is `D2`. -/
abbrev Trellis := BitVec 2

/-- The output bit of a generator for input `u` in state `p` (R135): the sum of what its three bits take. -/
def codeBit (g : BitVec 3) (u : Bool) (p : Trellis) : Bool :=
  (g.getLsbD 2 && u) ^^ (g.getLsbD 1 && p.getLsbD 0) ^^ (g.getLsbD 0 && p.getLsbD 1)

/-- The first output bit, by default of the generator 1 + D + D^2 (R135). -/
def codeG1 (c : ConvCode) (u : Bool) (p : Trellis) : Bool := codeBit c.g1 u p

/-- The second output bit, by default of the generator 1 + D^2 (R135). -/
def codeG2 (c : ConvCode) (u : Bool) (p : Trellis) : Bool := codeBit c.g2 u p

/-- The next state `((s & 1) << 1) | u` (R135). -/
def nextTrellis (u : Bool) (p : Trellis) : Trellis := (p <<< 1) ||| (BitVec.ofBool u).setWidth 2

/-- The input bit that leads into a state: its bit 0 (R135). -/
def inputOf (s : Trellis) : Bool := s.getLsbD 0

/-- The predecessor with `D2 = 0` (R135): `s >> 1`. -/
def pred0 (s : Trellis) : Trellis := s >>> 1

/-- The predecessor with `D2 = 1` (R135): `2 + (s >> 1)`. -/
def pred1 (s : Trellis) : Trellis := 2 + (s >>> 1)

/-- The four path metrics `pm[0..3]` (R21). -/
structure Metrics where
  m0 : Nat
  m1 : Nat
  m2 : Nat
  m3 : Nat
  deriving DecidableEq, Repr

/-- `pm[s]`. -/
def metricAt (m : Metrics) (s : Trellis) : Nat :=
  match s.toNat with
  | 0 => m.m0
  | 1 => m.m1
  | 2 => m.m2
  | _ => m.m3

/-- One received bit against an expected one. -/
def bitDist (a e : Bool) : Nat := if a = e then 0 else 1

/-- `bm(p, u, a, b)` (R137). -/
def branchMetric (c : ConvCode) (p : Trellis) (u a b : Bool) : Nat := bitDist a (codeG1 c u p) + bitDist b (codeG2 c u p)

/-- The metric of the path into `s` through predecessor `p` (R138). -/
def pathInto (c : ConvCode) (m : Metrics) (s p : Trellis) (a b : Bool) : Nat :=
  metricAt m p + branchMetric c p (inputOf s) a b

/-- The decision of `acs(s, a, b)` (R138): true for `p1`, which also wins a tie. -/
def acsBit (c : ConvCode) (m : Metrics) (a b : Bool) (s : Trellis) : Bool :=
  !decide (pathInto c m s (pred0 s) a b < pathInto c m s (pred1 s) a b)

/-- The metric of `acs(s, a, b)` (R138). -/
def acsMetric (c : ConvCode) (m : Metrics) (a b : Bool) (s : Trellis) : Nat :=
  if pathInto c m s (pred0 s) a b < pathInto c m s (pred1 s) a b then pathInto c m s (pred0 s) a b
  else pathInto c m s (pred1 s) a b

/-- The metrics after a pair: all four from the four old ones (R136). -/
def acsAll (c : ConvCode) (m : Metrics) (a b : Bool) : Metrics :=
  { m0 := acsMetric c m a b 0, m1 := acsMetric c m a b 1, m2 := acsMetric c m a b 2, m3 := acsMetric c m a b 3 }

/-- The four decisions of a pair, `pmem[s][t]` in bit s (R139). -/
def decisions (c : ConvCode) (m : Metrics) (a b : Bool) : BitVec 4 :=
  BitVec.ofBool (acsBit c m a b 3) ++ BitVec.ofBool (acsBit c m a b 2) ++ BitVec.ofBool (acsBit c m a b 1) ++
    BitVec.ofBool (acsBit c m a b 0)

/-- The forward pass (R136): final metrics, and the path memory with the newest pair first. -/
def forward (c : ConvCode) : List (Bool × Bool) → Metrics → List (BitVec 4) → Metrics × List (BitVec 4)
  | [], m, mem => (m, mem)
  | (a, b) :: ps, m, mem => forward c ps (acsAll c m a b) (decisions c m a b :: mem)

/-- `traceback()` (R140) over the path memory, newest pair first; `out` holds the bits already emitted. -/
def tracebackFrom : List (BitVec 4) → Trellis → List Bool → List Bool
  | [], _, out => out
  | d :: ds, s, out =>
    tracebackFrom ds (if d.getLsbD s.toNat then pred1 s else pred0 s) (inputOf s :: out)

/-- Metrics at the start: all 0 (R141). -/
def startMetrics : Metrics := ⟨0, 0, 0, 0⟩

/-- `VIT.DECODE(bits)` (R136) on the received pairs, from terminal state 0. -/
def viterbi (c : ConvCode) (pairs : List (Bool × Bool)) : List Bool :=
  tracebackFrom (forward c pairs startMetrics []).2 0 []

/-- The received pairs `(bits[2t], bits[2t + 1])` of a 660-bit vector (R136, N = 330). -/
def pairsOf (x : Block) : List (Bool × Bool) :=
  (List.range 330).map fun t => (x.getLsbD (2 * t), x.getLsbD (2 * t + 1))

/-- A list of bits as a bit vector, entry i in bit i. -/
def listBits (l : List Bool) (n : Nat) : BitVec n := ofBits (fun i => l.getD i false) n

/-- `VIT.DECODE` with N = 330 (R136, R190). -/
def vitDecode (c : ConvCode) (x : Block) : BitVec 330 := listBits (viterbi c (pairsOf x)) 330

/-- `UOP.VIT.DECODE` (R136): no error of its own, no metric reported (R144). -/
def execUopVitDecode (bits : Block) (s : State) : Host.Outcome State Fault Refusal :=
  runIn s (.ok { s with ret := .decoded (vitDecode s.cfg.convCode bits) })

end Sys2Proof.Machine
end

