-- ==== Sys2Proof/Machine/Dstar.lean ====
section
/-! DEFINITION. The D-STAR frame decoder and header decoder (spec/46_dstar_slot.md). -/

namespace Sys2Proof.Machine

/-- `DST.ENTER()` (R175). -/
def dstEnter (s : State) : State :=
  { s with
    fsm := processingDStar
    dst.dstPos := 0, dst.bitbuf := 0, dst.miss := 0, dst.dphase := 0, dst.dfirst := true, dst.dfr := 0 }

/-- `bitbuf <- ((bitbuf << 1) | b) & 0xFFFFFF` (R177). -/
def shiftBit (buf : BitVec 24) (b : Bool) : BitVec 24 := (buf <<< 1) ||| (BitVec.ofBool b).setWidth 24

/-- `intake()` (R177): the state after it and the data bit. -/
def intake (s : State) : Except Refusal (State × Bool) :=
  match dbtNext s with
  | .error r => .error r
  | .ok (s, d) => .ok ({ s with dst.bitbuf := shiftBit s.dst.bitbuf (dibitLo d) }, dibitLo d)

/-- The voice-segment part of `DSTV.BIT` after the intake of bit `b` (R178 to R180). -/
def voiceBit (b : Bool) (s : State) : State :=
  if s.dst.bitbuf = s.cfg.dstarSync24 then takeCondition .bitSlip s
  else
    let pos := s.dst.dstPos.toNat
    let fr := if pos = 0 then 0 else s.dst.dfr
    let s := { s with
      dst.dfr := frameSet fr (romAt s.cfg.romDw pos) (romAt s.cfg.romDx pos) b
      dst.dstPos := countUp .dstPos s.dst.dstPos }
    if pos + 1 = Config.voiceSegment then emit (.voiceFrame s.car.synctype s.dst.dfr) s else s

/-- `DSTV.BIT()` (R178); its position must be in the voice segment (R40). -/
def dstvBit (s : State) : Except Refusal State :=
  if Config.voiceSegment ≤ s.dst.dstPos.toNat then .error .indexRange
  else
    match intake s with
    | .error r => .error r
    | .ok (s, b) => .ok (voiceBit b s)

/-- `descramble_and_report(first)` (R187). -/
def reportSlowData (first : Bool) (s : State) : State :=
  let m0 := if first then 0 else s.cfg.dstarMask0
  let m1 := if first then 0 else s.cfg.dstarMask1
  let m2 := if first then 0 else s.cfg.dstarMask2
  let b0 := s.dst.slow[0] ^^^ m0
  let b1 := s.dst.slow[1] ^^^ m1
  let b2 := s.dst.slow[2] ^^^ m2
  emit (.slowData b0 b1 b2 (!first)) { s with dst.slow := #v[b0, b1, b2] }

/-- The end of `evaluate()` (R184, R186): give up at the miss limit, else begin the next frame. -/
def endSegment (s : State) : State :=
  if s.cfg.dstarMissLimit ≤ s.dst.miss.toNat then takeCondition .syncMissExceeded s else { s with dst.dstPos := 0 }

/-- `evaluate()` (R184, R185, R187). -/
def evaluate (s : State) : State :=
  let first := s.dst.dfirst
  let phase := fitU 8 .dphase ((s.dst.dphase.toNat + 1) % s.cfg.dstarSyncPeriod)
  let s := { s with dst.dfirst := false, dst.dphase := phase }
  if s.dst.bitbuf = s.cfg.dstarSync24 then endSegment { s with dst.miss := 0 }
  else if s.dst.bitbuf = s.cfg.dstarEot24 then takeCondition .endOfTx s
  else
    endSegment (reportSlowData first { s with dst.miss := if phase = 0 then countUp .miss s.dst.miss else s.dst.miss })

/-- The slow-data bytes with bit `k` of the segment stored (R181). -/
def slowWith (v : Vector Byte 3) (k : Nat) (b : Bool) : Vector Byte 3 :=
  let v := if k = 0 then Vector.replicate 3 0 else v
  if k < 24 then v.setIfInBounds (k / 8) (v.toList.getD (k / 8) 0 ||| ((BitVec.ofBool b).setWidth 8 <<< (k % 8))) else v

/-- The data-segment part of `DSTD.BIT` after the intake of bit `b` (R181, R183). -/
def dataBit (b : Bool) (s : State) : State :=
  let pos := s.dst.dstPos.toNat
  let s := { s with
    dst.slow := slowWith s.dst.slow (pos - Config.voiceSegment) b
    dst.dstPos := countUp .dstPos s.dst.dstPos }
  if s.dst.dstPos.toNat = Config.voiceSegment + s.cfg.dstarDataSyms then evaluate s else s

/-- `DSTD.BIT()` (R181); its position must be in the data segment (R40). -/
def dstdBit (s : State) : Except Refusal State :=
  if s.dst.dstPos.toNat < Config.voiceSegment then .error .indexRange
  else
    match intake s with
    | .error r => .error r
    | .ok (s, b) => .ok (dataBit b s)

/-- `DSTH.ENTER()` (R188). -/
def dsthEnter (s : State) : State := { s with fsm := processingDStarHeader, hdr.hdCnt := 0 }

/-- The 660 hard bits of the header block (R190): bit i is 1 for raw character 3, inverted for code 19. -/
def headerBits (s : State) : Block :=
  ofBits (fun i => decide (lookBack s (660 - i) = 3) ^^ decide (s.car.synctype = 19)) 660

/-- `pack(dec)` (R191): decoded bit i is bit `i mod 8` of byte `i / 8`. -/
def packHeader (dec : BitVec 330) : Vector Byte 41 := tabulate 41 fun j => dec.extractLsb' (8 * j) 8

/-- The header bytes of a received block (R190, R191): descramble, deinterleave, decode, pack. -/
def headerOf (c : Config) (bits : Block) : Vector Byte 41 :=
  packHeader (vitDecode c.convCode (deinterleave (descramble c.romScr bits)))

/-- `DSTH.DECODE()` (R190, R192, R193): the deepest look-back is 660; no validity check. -/
def dsthDecode (s : State) : Except Refusal State :=
  if synctypeLegal s = false then .error .reservedSynctype
  else
    match histBack s 660 with
    | .error r => .error r
    | .ok _ =>
      let h := headerOf s.cfg (headerBits s)
      .ok (emit (.dstarHeader h) { s with hdr.header := h })

/-- `DSTH.BIT()` (R189): the dibit is recorded and not used. -/
def dsthBit (s : State) : Except Refusal State :=
  match dbtNext s with
  | .error r => .error r
  | .ok (s, _) =>
    let s := { s with hdr.hdCnt := countUp .hdCnt s.hdr.hdCnt }
    if s.hdr.hdCnt.toNat = Config.headerSymbols then
      match dsthDecode s with
      | .error r => .error r
      | .ok s => .ok (takeCondition .frameDone s)
    else .ok s

/-- The DISPATCH row `DSTV.BIT` (R178). -/
def execDstvBit (s : State) : Host.Outcome State Fault Refusal := runIn s (dstvBit s)

/-- The DISPATCH row `DSTD.BIT` (R181). -/
def execDstdBit (s : State) : Host.Outcome State Fault Refusal := runIn s (dstdBit s)

/-- The DISPATCH row `DSTH.BIT` (R189). -/
def execDsthBit (s : State) : Host.Outcome State Fault Refusal := runIn s (dsthBit s)

/-- `UOP.DST.ENTER` (R175). -/
def execUopDstEnter (s : State) : Host.Outcome State Fault Refusal := runIn s (.ok (dstEnter s))

/-- `UOP.DSTV.BIT` (R178). -/
def execUopDstvBit (s : State) : Host.Outcome State Fault Refusal := runIn s (dstvBit s)

/-- `UOP.DSTD.BIT` (R181). -/
def execUopDstdBit (s : State) : Host.Outcome State Fault Refusal := runIn s (dstdBit s)

/-- `UOP.DSTH.ENTER` (R188). -/
def execUopDsthEnter (s : State) : Host.Outcome State Fault Refusal := runIn s (.ok (dsthEnter s))

/-- `UOP.DSTH.BIT` (R189). -/
def execUopDsthBit (s : State) : Host.Outcome State Fault Refusal := runIn s (dsthBit s)

/-- `UOP.DSTH.DECODE` (R190). -/
def execUopDsthDecode (s : State) : Host.Outcome State Fault Refusal := runIn s (dsthDecode s)

end Sys2Proof.Machine
end

