-- ==== Sys2Proof/Machine/FrameSync.lean ====
section
/-! DEFINITION. The frame-sync detector (spec/41_frame_sync.md). -/

namespace Sys2Proof.Machine

/-- `matches(p, L)` for the digits of a pattern from position `i` of the window on (R66, R100): an `E` entry, 4, equals
no digit. -/
def matchesFrom (w : List Went) : List Dibit → Bool
  | [] => true
  | d :: ds =>
    match w with
    | [] => false
    | e :: es => decide (e = d.setWidth 3) && matchesFrom es ds

/-- The row's pattern stands in the trailing `L` entries of the window (R66, R100). -/
def rowMatches (w : Vector Went 32) (r : SyncRow) : Bool :=
  match r.pattern with
  | none => false
  | some p => matchesFrom (w.toList.drop (32 - r.len)) p

/-- The first enabled row in table order whose pattern matches (R100, R102). -/
def firstRow (c : Config) (w : Vector Went 32) : List SyncRow → Option SyncRow
  | [] => none
  | r :: rs => if protocolEnabled c r.proto = true ∧ rowMatches w r = true then some r else firstRow c w rs

/-- `first_match()` (R100). -/
def firstMatch (s : State) : Option SyncRow :=
  if s.fs.t.toNat < Config.matchGate then none else firstRow s.cfg s.fs.window s.cfg.romSync

/-- `code_of(row)` (R101). -/
def codeOf (c : Config) (r : SyncRow) : Ftype :=
  match r.proto with
  | .dmr => if c.invDmr = true then r.code1 else r.code0
  | .x2tdma => if c.invX2tdma = true then r.code1 else r.code0
  | _ => r.code0

/-- The polarity pair of an NXDN code (R105): 8 and 16, or 9 and 17. -/
def inPair (code hint : Ftype) : Bool :=
  if code = 8 ∨ code = 16 then decide (hint = 8 ∨ hint = 16) else decide (hint = 9 ∨ hint = 17)

/-- `two_hit(row, code)` (R105): the state after it, and whether the match is confirmed. -/
def twoHit (r : SyncRow) (code : Ftype) (s : State) : State × Bool :=
  if r.twoHit = false then (dropHint s, true)
  else if inPair code s.fs.hint = true then (dropHint s, true)
  else ({ s with fs.hint := code, fs.tHint := 0 }, false)

/-- `carrier_watch()` (R107). -/
def carrierWatch (s : State) : State × SyncResult :=
  let s := countMiss s
  if s.cfg.carrierTimeout ≤ s.fs.synctestPos.toNat then (noCarrier s, .noSync) else (s, .none)

/-- The end of `FS.STEP` for a symbol without a confirmed match (R95): hint expiry, carrier watch. -/
def searchMiss (s : State) : State × SyncResult := carrierWatch (expireHint s)

/-- `FS.STEP(v)` (R95). -/
def fsStep (v : Sample) (s : State) : State × SyncResult :=
  let s := searchIntake v s
  match firstMatch s with
  | none => searchMiss s
  | some r =>
    let code := codeOf s.cfg r
    let h := twoHit r code (recalibrate s)
    if h.2 = true then (h.1, .sync code) else searchMiss h.1

/-- `UOP.FS.STEP` (R95): the operation alone, its result returned; the orchestrator's reaction (R203) is not part of
it. -/
def execUopFsStep (v : Sample) (s : State) : Host.Outcome State Fault Refusal :=
  runIn s (.ok { (fsStep v s).1 with ret := .sync (fsStep v s).2 })

/-- `UOP.FS.NOCARRIER` (R108). -/
def execUopFsNocarrier (s : State) : Host.Outcome State Fault Refusal := runIn s (.ok (noCarrier s))

end Sys2Proof.Machine
end

