-- ==== Sys2Proof/Machine/Timing.lean ====
section
/-! DEFINITION. Symbol-timing recovery and the majority detector (spec/40_symbol_timing.md). -/

namespace Sys2Proof.Machine

/-- `clamp(sample, haveSync)` (R81). -/
def clamp (c : CarRegs) (sync : Bool) (v : Sample) : Sample :=
  if sync = true ∧ c.rfMod = rfC4fm then
    if c.max.toInt < v.toInt then c.max
    else if v.toInt < c.min.toInt then c.min
    else v
  else v

/-- `track(s, haveSync)` (R82). -/
def track (sync : Bool) (v : Sample) (s : State) : State :=
  { s with
    str.numflips :=
      if crossing s.car.center s.str.last v = true ∧ sync = false ∧ s.str.numflips.toNat < 65535 then s.str.numflips + 1
      else s.str.numflips
    str.jitter :=
      if s.str.jitter.toInt < 0 ∧ timingEvent s.car s.str.last v = true then s.str.sidx.setWidth 10
      else s.str.jitter
    str.last := v }

/-- `accumulate(s)` (R83). -/
def accumulate (v : Sample) (s : State) : State :=
  let w := winOf s.cfg s.car.rfMod
  if w.lo ≤ s.str.sidx.toNat ∧ s.str.sidx.toNat ≤ w.hi then
    { s with
      str.sum := fitS 32 .sum (s.str.sum.toInt + v.toInt)
      str.cnt := countUp .cnt s.str.cnt
      maj.npos := if s.car.center.toInt < v.toInt then countUp .npos s.maj.npos else s.maj.npos
      maj.nneg := if v.toInt < s.car.center.toInt then countUp .nneg s.maj.nneg else s.maj.nneg }
  else s

/-- `average()` (R85): 0 for an empty window, else the mean truncated toward zero. -/
def average (s : State) : Sample :=
  if s.str.cnt = 0 then 0 else fitS 16 .symbol (s.str.sum.toInt.tdiv s.str.cnt.toNat)

/-- The sub-rules of R80 up to the boundary test: clamp, track, accumulate, count. -/
def strIntake (v : Sample) (sync : Bool) (s : State) : State :=
  let c := clamp s.car sync v
  let s := accumulate c (track sync c s)
  { s with str.sidx := countUp .sidx s.str.sidx }

/-- `STR.PUSH(sample, haveSync)` (R80, R84): the state after it and the symbol it emits, if any. -/
def strPush (v : Sample) (sync : Bool) (s : State) : State × Option Sample :=
  let s := strIntake v sync s
  if s.str.sidx.toNat < s.str.plen.toNat then (s, none) else (boundary sync s, some (average s))

/-- `UOP.STR.PUSH` (R80). -/
def execUopStrPush (sample : Sample) (haveSync : Bool) (s : State) : Host.Outcome State Fault Refusal :=
  runIn s (.ok { (strPush sample haveSync s).1 with ret := .symbol (strPush sample haveSync s).2 })

/-- `UOP.MAJ.VOTE` (R87). -/
def execUopMajVote (s : State) : Host.Outcome State Fault Refusal := runIn s (.ok (majVote s))

end Sys2Proof.Machine
end

