-- ==== Sys2Proof/Machine/Orchestrator.lean ====
section
/-! DEFINITION. The orchestrator (spec/47_orchestrator.md): the reaction to a search result, the entry of a protocol
state, the step for one sample, and RESET. -/

namespace Sys2Proof.Machine

/-- `enter(code)` (R204, R205). -/
def enter (code : Ftype) (s : State) : Except Refusal State :=
  if code = 11 ∨ code = 12 then dmrvEnter s
  else if code = 10 ∨ code = 13 then dmrdEnter s
  else if code = 6 ∨ code = 7 then .ok (dstEnter s)
  else if code = 18 ∨ code = 19 then .ok (dsthEnter s)
  else .ok (takeCondition .foreignSync s)

/-- The reaction to `Sync(code)` (R203): record the lock, report it, enter. -/
def lockOn (code : Ftype) (s : State) : Except Refusal State :=
  enter code (emit (.sync code)
    { s with car.synctype := code, car.lastsynctype := code, car.carrier := true })

/-- The reaction to a result of `FS.STEP` (R203). -/
def react (r : SyncResult) (s : State) : Except Refusal State :=
  match r with
  | .none => .ok s
  | .noSync => .ok (reportNoSync s)
  | .sync code => lockOn code s

/-- `on_search(v)` (R203). -/
def onSearch (v : Sample) (s : State) : Except Refusal State := react (fsStep v s).2 (fsStep v s).1

/-- The operation the dispatch word selects for the symbol in the register `symbol` (R58, R200). -/
def selectOperation (word : BitVec 7) (s : State) : Except Refusal State :=
  let code : BitVec 3 := word.extractLsb' 4 3
  let sub : BitVec 4 := word.extractLsb' 0 4
  if code = lookingForSync then onSearch s.str.symbol s
  else if code = processingDmrVoice then dmrvStep s
  else if code = processingDmrData then dmrdStep s
  else if code = processingDStar then (if sub = 0 then dstvBit s else dstdBit s)
  else if code = processingDStarHeader then dsthBit s
  else .error .reservedFsm

/-- `ORC.PUSH(sample)` (R200, R201): the dispatch word is that of the state at the start of the step. -/
def orcPush (v : Sample) (s : State) : Except Refusal State :=
  match strPush v (haveSync s) { s with events := [] } with
  | (t, none) => .ok t
  | (t, some sym) => selectOperation (dispatchWord s) { t with str.symbol := sym }

/-- `ORC.RESET()` (R212, R235): the reset state under the host's configuration; what the host has yet to issue is kept. -/
def orcReset (s : State) : State := State.resetWith s.cfg s.input

/-- The DISPATCH row `FS.STEP` (R58, R200): the search step on the symbol register with the reaction to its result. -/
def execFsStep (s : State) : Host.Outcome State Fault Refusal := runIn s (onSearch s.str.symbol s)

/-- `DISPATCH.RESERVED5` (R75): refused. -/
def execDispatchReserved5 (_s : State) : Host.Outcome State Fault Refusal := .refused .reservedDispatch

/-- `DISPATCH.RESERVED67` (R75): refused. -/
def execDispatchReserved67 (_s : State) : Host.Outcome State Fault Refusal := .refused .reservedDispatch

/-- `UOP.ORC.TOSEARCH` (R206). -/
def execUopOrcTosearch (s : State) : Host.Outcome State Fault Refusal := runIn s (.ok (toSearch s))

/-- `UOP.ORC.PUSH` (R200). -/
def execUopOrcPush (sample : Sample) (s : State) : Host.Outcome State Fault Refusal := runIn s (orcPush sample s)

/-- `UOP.ORC.RESET` (R212): in any state, under a legal configuration. -/
def execUopOrcReset (s : State) : Host.Outcome State Fault Refusal :=
  if configLegal s.cfg = false then .refused .illegalConfig else .next (orcReset s)

end Sys2Proof.Machine
end

