-- ==== Sys2Proof/Machine/Codes.lean ====
section
/-! DEFINITION. The code rows of the opcode table: what the block does with a code of FTYPE, RFMOD, WENT, SLOTLIGHT, DIBIT
and BURSTTYPE (spec/30_encoding.md R61 to R69). The spec gives a code its effect where the code is produced; running the
row performs exactly that effect (notes/assumptions/5.md to 10.md). -/

namespace Sys2Proof.Machine

/-! ### FTYPE: the reaction to the code as a result of `FS.STEP` (R203 to R205) -/

/-- `FTYPE.P25P1` (R62, R203, R204): code 0. -/
def execFtypeP25p1 (s : State) : Host.Outcome State Fault Refusal := runIn s (react (.sync 0) s)

/-- `FTYPE.P25P1.INV` (R62, R203, R204): code 1. -/
def execFtypeP25p1Inv (s : State) : Host.Outcome State Fault Refusal := runIn s (react (.sync 1) s)

/-- `FTYPE.X2TDMA.DATA` (R62, R203, R204): code 2. -/
def execFtypeX2tdmaData (s : State) : Host.Outcome State Fault Refusal := runIn s (react (.sync 2) s)

/-- `FTYPE.X2TDMA.VOICE.INV` (R62, R203, R204): code 3. -/
def execFtypeX2tdmaVoiceInv (s : State) : Host.Outcome State Fault Refusal := runIn s (react (.sync 3) s)

/-- `FTYPE.X2TDMA.VOICE` (R62, R203, R204): code 4. -/
def execFtypeX2tdmaVoice (s : State) : Host.Outcome State Fault Refusal := runIn s (react (.sync 4) s)

/-- `FTYPE.X2TDMA.DATA.INV` (R62, R203, R204): code 5. -/
def execFtypeX2tdmaDataInv (s : State) : Host.Outcome State Fault Refusal := runIn s (react (.sync 5) s)

/-- `FTYPE.DSTAR` (R62, R203, R204): code 6. -/
def execFtypeDstar (s : State) : Host.Outcome State Fault Refusal := runIn s (react (.sync 6) s)

/-- `FTYPE.DSTAR.INV` (R62, R203, R204): code 7. -/
def execFtypeDstarInv (s : State) : Host.Outcome State Fault Refusal := runIn s (react (.sync 7) s)

/-- `FTYPE.NXDN.VOICE` (R62, R203, R204): code 8. -/
def execFtypeNxdnVoice (s : State) : Host.Outcome State Fault Refusal := runIn s (react (.sync 8) s)

/-- `FTYPE.NXDN.VOICE.INV` (R62, R203, R204): code 9. -/
def execFtypeNxdnVoiceInv (s : State) : Host.Outcome State Fault Refusal := runIn s (react (.sync 9) s)

/-- `FTYPE.DMR.DATA` (R62, R203, R204): code 10. -/
def execFtypeDmrData (s : State) : Host.Outcome State Fault Refusal := runIn s (react (.sync 10) s)

/-- `FTYPE.DMR.VOICE.INV` (R62, R203, R204): code 11. -/
def execFtypeDmrVoiceInv (s : State) : Host.Outcome State Fault Refusal := runIn s (react (.sync 11) s)

/-- `FTYPE.DMR.VOICE` (R62, R203, R204): code 12. -/
def execFtypeDmrVoice (s : State) : Host.Outcome State Fault Refusal := runIn s (react (.sync 12) s)

/-- `FTYPE.DMR.DATA.INV` (R62, R203, R204): code 13. -/
def execFtypeDmrDataInv (s : State) : Host.Outcome State Fault Refusal := runIn s (react (.sync 13) s)

/-- `FTYPE.PROVOICE` (R62, R203, R204): code 14. -/
def execFtypeProvoice (s : State) : Host.Outcome State Fault Refusal := runIn s (react (.sync 14) s)

/-- `FTYPE.PROVOICE.INV` (R62, R203, R204): code 15. -/
def execFtypeProvoiceInv (s : State) : Host.Outcome State Fault Refusal := runIn s (react (.sync 15) s)

/-- `FTYPE.NXDN.DATA` (R62, R203, R204): code 16. -/
def execFtypeNxdnData (s : State) : Host.Outcome State Fault Refusal := runIn s (react (.sync 16) s)

/-- `FTYPE.NXDN.DATA.INV` (R62, R203, R204): code 17. -/
def execFtypeNxdnDataInv (s : State) : Host.Outcome State Fault Refusal := runIn s (react (.sync 17) s)

/-- `FTYPE.DSTARHD` (R62, R203, R204): code 18. -/
def execFtypeDstarhd (s : State) : Host.Outcome State Fault Refusal := runIn s (react (.sync 18) s)

/-- `FTYPE.DSTARHD.INV` (R62, R203, R204): code 19. -/
def execFtypeDstarhdInv (s : State) : Host.Outcome State Fault Refusal := runIn s (react (.sync 19) s)

/-- `FTYPE.NONE` (R61, R110): -1 as the result of `FS.STEP` is `NoSync`; its reaction (R203). -/
def execFtypeNone (s : State) : Host.Outcome State Fault Refusal := runIn s (react .noSync s)

/-! ### RFMOD: the write of the hypothesis the class is chosen as (R98) -/

/-- `RFMOD.C4FM` (R63, R98). -/
def execRfmodC4fm (s : State) : Host.Outcome State Fault Refusal :=
  runIn s (.ok (applyHypothesis rfC4fm s))

/-- `RFMOD.QPSK` (R63, R98). -/
def execRfmodQpsk (s : State) : Host.Outcome State Fault Refusal :=
  runIn s (.ok (applyHypothesis rfQpsk s))

/-- `RFMOD.GFSK` (R63, R98). -/
def execRfmodGfsk (s : State) : Host.Outcome State Fault Refusal :=
  runIn s (.ok (applyHypothesis rfGfsk s))

/-- `RFMOD.RESERVED` (R63, R75): reserved, refused. -/
def execRfmodReserved (_s : State) : Host.Outcome State Fault Refusal := .refused .reservedModulationCode

/-! ### WENT: the entry's write into the window (R99; `E` by R206) -/

/-- `WENT.DIGIT0` (R65, R99). -/
def execWentDigit0 (s : State) : Host.Outcome State Fault Refusal := runIn s (.ok (shiftWindow 0 s))

/-- `WENT.DIGIT1` (R65, R99). -/
def execWentDigit1 (s : State) : Host.Outcome State Fault Refusal := runIn s (.ok (shiftWindow 1 s))

/-- `WENT.DIGIT2` (R65, R99). -/
def execWentDigit2 (s : State) : Host.Outcome State Fault Refusal := runIn s (.ok (shiftWindow 2 s))

/-- `WENT.DIGIT3` (R65, R99). -/
def execWentDigit3 (s : State) : Host.Outcome State Fault Refusal := runIn s (.ok (shiftWindow 3 s))

/-- `WENT.E` (R65, R206): every entry becomes `E`. -/
def execWentE (s : State) : Host.Outcome State Fault Refusal := runIn s (.ok (emptyWindowEntries s))

/-! ### SLOTLIGHT: the write of the light (R165; `IDLE` by R108) -/

/-- `SLOTLIGHT.IDLE` (R69, R108): both lights. -/
def execSlotlightIdle (s : State) : Host.Outcome State Fault Refusal := runIn s (.ok (lightsIdle s))

/-- `SLOTLIGHT.DATA` (R69, R165): the light of the current slot. -/
def execSlotlightData (s : State) : Host.Outcome State Fault Refusal := runIn s (.ok (setLight lightData s))

/-- `SLOTLIGHT.VOICE` (R69, R165): the light of the current slot. -/
def execSlotlightVoice (s : State) : Host.Outcome State Fault Refusal := runIn s (.ok (setLight lightVoice s))

/-- `SLOTLIGHT.RESERVED` (R69, R75): reserved, refused. -/
def execSlotlightReserved (_s : State) : Host.Outcome State Fault Refusal := .refused .reservedLightCode

/-! ### DIBIT: the raw classification's push into the history (R64, R121) -/

/-- `DIBIT.RAW.ABOVE_UMID` (R64, R121). -/
def execDibitRawAboveUmid (s : State) : Host.Outcome State Fault Refusal := runIn s (.ok (histPush 1 s))

/-- `DIBIT.RAW.CENTER_TO_UMID` (R64, R121). -/
def execDibitRawCenterToUmid (s : State) : Host.Outcome State Fault Refusal := runIn s (.ok (histPush 0 s))

/-- `DIBIT.RAW.LMID_TO_CENTER` (R64, R121). -/
def execDibitRawLmidToCenter (s : State) : Host.Outcome State Fault Refusal := runIn s (.ok (histPush 2 s))

/-- `DIBIT.RAW.BELOW_LMID` (R64, R121). -/
def execDibitRawBelowLmid (s : State) : Host.Outcome State Fault Refusal := runIn s (.ok (histPush 3 s))

/-! ### BURSTTYPE: the burst type of a data burst (R68, R166) -/

/-- `bursttype <- b` (R166). -/
def setBurst (b : BitVec 4) (s : State) : State := { s with dmr.bursttype := b }

/-- `BURST.PI_HEADER` (R68). -/
def execBurstPiHeader (s : State) : Host.Outcome State Fault Refusal := runIn s (.ok (setBurst 0 s))

/-- `BURST.VOICE_LC_HEADER` (R68). -/
def execBurstVoiceLcHeader (s : State) : Host.Outcome State Fault Refusal := runIn s (.ok (setBurst 1 s))

/-- `BURST.TERMINATOR_LC` (R68). -/
def execBurstTerminatorLc (s : State) : Host.Outcome State Fault Refusal := runIn s (.ok (setBurst 2 s))

/-- `BURST.CSBK` (R68). -/
def execBurstCsbk (s : State) : Host.Outcome State Fault Refusal := runIn s (.ok (setBurst 3 s))

/-- `BURST.MBC_HEADER` (R68). -/
def execBurstMbcHeader (s : State) : Host.Outcome State Fault Refusal := runIn s (.ok (setBurst 4 s))

/-- `BURST.MBC_CONT` (R68). -/
def execBurstMbcCont (s : State) : Host.Outcome State Fault Refusal := runIn s (.ok (setBurst 5 s))

/-- `BURST.DATA_HEADER` (R68). -/
def execBurstDataHeader (s : State) : Host.Outcome State Fault Refusal := runIn s (.ok (setBurst 6 s))

/-- `BURST.RATE12_DATA` (R68). -/
def execBurstRate12Data (s : State) : Host.Outcome State Fault Refusal := runIn s (.ok (setBurst 7 s))

/-- `BURST.RATE34_DATA` (R68). -/
def execBurstRate34Data (s : State) : Host.Outcome State Fault Refusal := runIn s (.ok (setBurst 8 s))

/-- `BURST.IDLE` (R68). -/
def execBurstIdle (s : State) : Host.Outcome State Fault Refusal := runIn s (.ok (setBurst 9 s))

/-- `BURST.RATE1_DATA` (R68). -/
def execBurstRate1Data (s : State) : Host.Outcome State Fault Refusal := runIn s (.ok (setBurst 10 s))

end Sys2Proof.Machine
end

