-- ==== Sys2Proof/Machine/Conditions.lean ====
section
/-! DEFINITION. The CONDITION rows (spec/60_exceptions.md R216): taking the condition (R215). -/

namespace Sys2Proof.Machine

/-- `COND.NOSYNC` (R217). -/
def execCondNosync (s : State) : Host.Outcome State Fault Refusal :=
  runIn s (.ok (takeCondition .noSync s))

/-- `COND.CARRIERLOSS` (R218). -/
def execCondCarrierloss (s : State) : Host.Outcome State Fault Refusal :=
  runIn s (.ok (takeCondition .carrierLoss s))

/-- `COND.BITSLIP` (R219). -/
def execCondBitslip (s : State) : Host.Outcome State Fault Refusal :=
  runIn s (.ok (takeCondition .bitSlip s))

/-- `COND.SYNCMISSEXCEEDED` (R221). -/
def execCondSyncmissexceeded (s : State) : Host.Outcome State Fault Refusal :=
  runIn s (.ok (takeCondition .syncMissExceeded s))

/-- `COND.EMPTYWINDOW` (R220). -/
def execCondEmptywindow (s : State) : Host.Outcome State Fault Refusal :=
  runIn s (.ok (takeCondition .emptyWindow s))

/-- `COND.FRAMEDONE` (R222). -/
def execCondFramedone (s : State) : Host.Outcome State Fault Refusal :=
  runIn s (.ok (takeCondition .frameDone s))

/-- `COND.ENDOFTX` (R222). -/
def execCondEndoftx (s : State) : Host.Outcome State Fault Refusal :=
  runIn s (.ok (takeCondition .endOfTx s))

/-- `COND.FOREIGNSYNC` (R222). -/
def execCondForeignsync (s : State) : Host.Outcome State Fault Refusal :=
  runIn s (.ok (takeCondition .foreignSync s))

end Sys2Proof.Machine
end

