-- ==== Sys2Proof/Machine/Dispatch.lean ====
section
/-! DEFINITION. One arm per instruction, each one direct call of its meaning. -/

namespace Sys2Proof.Machine

def exec (i : Instr) (s : State) : Host.Outcome State Fault Refusal :=
  match i with
  | .fsStep => Sys2Proof.Machine.execFsStep s
  | .dmrvSlot0 d k => Sys2Proof.Machine.execDmrvSlot0 d k s
  | .dmrvSlot1 d k => Sys2Proof.Machine.execDmrvSlot1 d k s
  | .dmrvSlot2 d k => Sys2Proof.Machine.execDmrvSlot2 d k s
  | .dmrvSlot3 d k => Sys2Proof.Machine.execDmrvSlot3 d k s
  | .dmrvSlot4 d k => Sys2Proof.Machine.execDmrvSlot4 d k s
  | .dmrvSlot5 d k => Sys2Proof.Machine.execDmrvSlot5 d k s
  | .dmrvSlot6 d k => Sys2Proof.Machine.execDmrvSlot6 d k s
  | .dmrvSlot7 d k => Sys2Proof.Machine.execDmrvSlot7 d k s
  | .dmrvSlot8 d k => Sys2Proof.Machine.execDmrvSlot8 d k s
  | .dmrvSlot9 d k => Sys2Proof.Machine.execDmrvSlot9 d k s
  | .dmrvSlot10 d k => Sys2Proof.Machine.execDmrvSlot10 d k s
  | .dmrvTail d k => Sys2Proof.Machine.execDmrvTail d k s
  | .dmrdStep => Sys2Proof.Machine.execDmrdStep s
  | .dstvBit => Sys2Proof.Machine.execDstvBit s
  | .dstdBit => Sys2Proof.Machine.execDstdBit s
  | .dsthBit => Sys2Proof.Machine.execDsthBit s
  | .dispatchReserved5 => Sys2Proof.Machine.execDispatchReserved5 s
  | .dispatchReserved67 => Sys2Proof.Machine.execDispatchReserved67 s
  | .ftypeP25p1 => Sys2Proof.Machine.execFtypeP25p1 s
  | .ftypeP25p1Inv => Sys2Proof.Machine.execFtypeP25p1Inv s
  | .ftypeX2tdmaData => Sys2Proof.Machine.execFtypeX2tdmaData s
  | .ftypeX2tdmaVoiceInv => Sys2Proof.Machine.execFtypeX2tdmaVoiceInv s
  | .ftypeX2tdmaVoice => Sys2Proof.Machine.execFtypeX2tdmaVoice s
  | .ftypeX2tdmaDataInv => Sys2Proof.Machine.execFtypeX2tdmaDataInv s
  | .ftypeDstar => Sys2Proof.Machine.execFtypeDstar s
  | .ftypeDstarInv => Sys2Proof.Machine.execFtypeDstarInv s
  | .ftypeNxdnVoice => Sys2Proof.Machine.execFtypeNxdnVoice s
  | .ftypeNxdnVoiceInv => Sys2Proof.Machine.execFtypeNxdnVoiceInv s
  | .ftypeDmrData => Sys2Proof.Machine.execFtypeDmrData s
  | .ftypeDmrVoiceInv => Sys2Proof.Machine.execFtypeDmrVoiceInv s
  | .ftypeDmrVoice => Sys2Proof.Machine.execFtypeDmrVoice s
  | .ftypeDmrDataInv => Sys2Proof.Machine.execFtypeDmrDataInv s
  | .ftypeProvoice => Sys2Proof.Machine.execFtypeProvoice s
  | .ftypeProvoiceInv => Sys2Proof.Machine.execFtypeProvoiceInv s
  | .ftypeNxdnData => Sys2Proof.Machine.execFtypeNxdnData s
  | .ftypeNxdnDataInv => Sys2Proof.Machine.execFtypeNxdnDataInv s
  | .ftypeDstarhd => Sys2Proof.Machine.execFtypeDstarhd s
  | .ftypeDstarhdInv => Sys2Proof.Machine.execFtypeDstarhdInv s
  | .ftypeNone => Sys2Proof.Machine.execFtypeNone s
  | .uopStrPush sample sync => Sys2Proof.Machine.execUopStrPush sample sync s
  | .uopMajVote => Sys2Proof.Machine.execUopMajVote s
  | .uopFsStep v => Sys2Proof.Machine.execUopFsStep v s
  | .uopFsNocarrier => Sys2Proof.Machine.execUopFsNocarrier s
  | .uopDbtNext => Sys2Proof.Machine.execUopDbtNext s
  | .uopDscXor660 input => Sys2Proof.Machine.execUopDscXor660 input s
  | .uopDilPerm660 input => Sys2Proof.Machine.execUopDilPerm660 input s
  | .uopVitDecode bits => Sys2Proof.Machine.execUopVitDecode bits s
  | .uopDmrvEnter => Sys2Proof.Machine.execUopDmrvEnter s
  | .uopDmrvStep => Sys2Proof.Machine.execUopDmrvStep s
  | .uopDmrdEnter => Sys2Proof.Machine.execUopDmrdEnter s
  | .uopDmrdStep => Sys2Proof.Machine.execUopDmrdStep s
  | .uopDstEnter => Sys2Proof.Machine.execUopDstEnter s
  | .uopDstvBit => Sys2Proof.Machine.execUopDstvBit s
  | .uopDstdBit => Sys2Proof.Machine.execUopDstdBit s
  | .uopDsthEnter => Sys2Proof.Machine.execUopDsthEnter s
  | .uopDsthBit => Sys2Proof.Machine.execUopDsthBit s
  | .uopDsthDecode => Sys2Proof.Machine.execUopDsthDecode s
  | .uopOrcTosearch => Sys2Proof.Machine.execUopOrcTosearch s
  | .uopOrcPush sample => Sys2Proof.Machine.execUopOrcPush sample s
  | .uopOrcReset => Sys2Proof.Machine.execUopOrcReset s
  | .rfmodC4fm => Sys2Proof.Machine.execRfmodC4fm s
  | .rfmodQpsk => Sys2Proof.Machine.execRfmodQpsk s
  | .rfmodGfsk => Sys2Proof.Machine.execRfmodGfsk s
  | .rfmodReserved => Sys2Proof.Machine.execRfmodReserved s
  | .wentDigit0 => Sys2Proof.Machine.execWentDigit0 s
  | .wentDigit1 => Sys2Proof.Machine.execWentDigit1 s
  | .wentDigit2 => Sys2Proof.Machine.execWentDigit2 s
  | .wentDigit3 => Sys2Proof.Machine.execWentDigit3 s
  | .wentE => Sys2Proof.Machine.execWentE s
  | .slotlightIdle => Sys2Proof.Machine.execSlotlightIdle s
  | .slotlightData => Sys2Proof.Machine.execSlotlightData s
  | .slotlightVoice => Sys2Proof.Machine.execSlotlightVoice s
  | .slotlightReserved => Sys2Proof.Machine.execSlotlightReserved s
  | .dibitRawAboveUmid => Sys2Proof.Machine.execDibitRawAboveUmid s
  | .dibitRawCenterToUmid => Sys2Proof.Machine.execDibitRawCenterToUmid s
  | .dibitRawLmidToCenter => Sys2Proof.Machine.execDibitRawLmidToCenter s
  | .dibitRawBelowLmid => Sys2Proof.Machine.execDibitRawBelowLmid s
  | .burstPiHeader => Sys2Proof.Machine.execBurstPiHeader s
  | .burstVoiceLcHeader => Sys2Proof.Machine.execBurstVoiceLcHeader s
  | .burstTerminatorLc => Sys2Proof.Machine.execBurstTerminatorLc s
  | .burstCsbk => Sys2Proof.Machine.execBurstCsbk s
  | .burstMbcHeader => Sys2Proof.Machine.execBurstMbcHeader s
  | .burstMbcCont => Sys2Proof.Machine.execBurstMbcCont s
  | .burstDataHeader => Sys2Proof.Machine.execBurstDataHeader s
  | .burstRate12Data => Sys2Proof.Machine.execBurstRate12Data s
  | .burstRate34Data => Sys2Proof.Machine.execBurstRate34Data s
  | .burstIdle => Sys2Proof.Machine.execBurstIdle s
  | .burstRate1Data => Sys2Proof.Machine.execBurstRate1Data s
  | .condNosync => Sys2Proof.Machine.execCondNosync s
  | .condCarrierloss => Sys2Proof.Machine.execCondCarrierloss s
  | .condBitslip => Sys2Proof.Machine.execCondBitslip s
  | .condSyncmissexceeded => Sys2Proof.Machine.execCondSyncmissexceeded s
  | .condEmptywindow => Sys2Proof.Machine.execCondEmptywindow s
  | .condFramedone => Sys2Proof.Machine.execCondFramedone s
  | .condEndoftx => Sys2Proof.Machine.execCondEndoftx s
  | .condForeignsync => Sys2Proof.Machine.execCondForeignsync s

end Sys2Proof.Machine
end

