-- ==== Sys2Proof/Machine/Step.lean ====
section
/-! DEFINITION. One step: the host's next operation, decoded and performed (spec/47_orchestrator.md R200, R210). -/

namespace Sys2Proof.Machine

/-- Take the next command word the host has issued, decode it, perform it. With none issued the block idles; a word that
decodes to no instruction is refused (R75). -/
def step (s : State) : Host.Outcome State Fault Refusal :=
  match takeInput s with
  | none => .next (idle s)
  | some (w, t) =>
    match decode w with
    | .error e => .refused (.undecodable e)
    | .ok i => exec i t

/-- `s` with the instruction whose bits are `w`, every bit above `nbits` 0, placed where `step` takes its next one. -/
def State.withFetchWord (s : State) (nbits w : Nat) : State := placeInput (tableWord nbits w) s

end Sys2Proof.Machine
end

