-- ==== Sys2Proof/Machine/Reference.lean ====
section
/-! DEFINITION. What the spec gives for test benches, none of it an operation of the block: the reference encoder
(spec/44_viterbi.md R142), the transmit-side interleaver (spec/43_descrambler_deinterleaver.md R129, R130), the transmitted
header block (spec/95_test_vectors.md P4), and the stimulus notation (spec/30_encoding.md R77, R78). With them stand the words
the statements use to speak of several operations at once: runs of one operation, and the rows a position or a code
selects. -/

namespace Sys2Proof.Machine

/-- `ENC(msg)` from a trellis state (R142), as received pairs. -/
def convEncodeFrom (c : ConvCode) : List Bool → Trellis → List (Bool × Bool)
  | [], _ => []
  | u :: us, p => (codeG1 c u p, codeG2 c u p) :: convEncodeFrom c us (nextTrellis u p)

/-- `ENC(msg)` (R142). -/
def convEncode (c : ConvCode) (msg : List Bool) : List (Bool × Bool) := convEncodeFrom c msg 0

/-- Pairs with channel bit `j` inverted: bit `2t` is the first of pair t, bit `2t + 1` the second. -/
def flipChannelBit : List (Bool × Bool) → Nat → List (Bool × Bool)
  | [], _ => []
  | (a, b) :: ps, 0 => (!a, b) :: ps
  | (a, b) :: ps, 1 => (a, !b) :: ps
  | p :: ps, j + 2 => p :: flipChannelBit ps j

/-- `K[i]` (R129): the output index of the deinterleaver's input bit i. -/
def kIndex : Nat → Nat
  | 0 => 0
  | i + 1 => nextK (kIndex i)

/-- `IL(x)` (R130): the inverse of `DIL.PERM660`. -/
def interleave (x : Block) : Block := ofBits (fun i => x.getLsbD (kIndex i)) 660

/-- Received pairs as a 660-bit vector, pair t in bits `2t` and `2t + 1`. -/
def blockOfPairs (ps : List (Bool × Bool)) : Block :=
  ofBits (fun i => if i % 2 = 0 then (ps.getD (i / 2) (false, false)).1 else (ps.getD (i / 2) (false, false)).2) 660

/-- The 330-bit message of a header: its 328 bits, least significant bit of each byte first, then the two tail zeros
(R191, R143). -/
def headerMessage (h : Vector Byte 41) : List Bool :=
  (List.range 330).map fun i => (h.toList.getD (i / 8) 0).getLsbD (i % 8) && decide (i < 328)

/-- The transmitted 660-bit block of a header: encode, interleave, scramble. -/
def transmitBlock (c : Config) (h : Vector Byte 41) : Block :=
  descramble c.romScr (interleave (blockOfPairs (convEncode c.convCode (headerMessage h))))

/-- `STR.PUSH` of each sample in turn (R80): the state after it and the symbols emitted. -/
def strRun (sync : Bool) : List Sample → State → State × List Sample
  | [], s => (s, [])
  | v :: vs, s =>
    let q := strRun sync vs (strPush v sync s).1
    (q.1, (strPush v sync s).2.toList ++ q.2)

/-- The samples whose index, counted from `i`, is in an averaging window (R83). -/
def windowSamples (w : Window) : Nat → List Sample → List Sample
  | _, [] => []
  | i, v :: vs => if w.lo ≤ i ∧ i ≤ w.hi then v :: windowSamples w (i + 1) vs else windowSamples w (i + 1) vs

/-- The sum of samples as an integer. -/
def sampleSum : List Sample → Int
  | [] => 0
  | v :: vs => v.toInt + sampleSum vs

/-- What `FS.STEP` does with each of several symbols before it looks for a match (R96 to R99, R106 (a)). -/
def intakeAll : List Sample → State → State
  | [], s => s
  | v :: vs, s => intakeAll vs (searchIntake v s)

/-- The slot row that `sub` selects in `fsm = 1` (R58), with its operands. -/
def slotRow (sub : Nat) (d : Dibit) (k : BitVec 6) : Instr :=
  match sub with
  | 0 => .dmrvSlot0 d k
  | 1 => .dmrvSlot1 d k
  | 2 => .dmrvSlot2 d k
  | 3 => .dmrvSlot3 d k
  | 4 => .dmrvSlot4 d k
  | 5 => .dmrvSlot5 d k
  | 6 => .dmrvSlot6 d k
  | 7 => .dmrvSlot7 d k
  | 8 => .dmrvSlot8 d k
  | 9 => .dmrvSlot9 d k
  | 10 => .dmrvSlot10 d k
  | _ => .dmrvTail d k

/-- The operation a symbol gets (R58, R200): by `fsm`, in `ProcessingDStar` also by `dst_pos`. -/
def symbolRow (s : State) : Instr :=
  if s.fsm = lookingForSync then .fsStep
  else if s.fsm = processingDmrVoice then .uopDmrvStep
  else if s.fsm = processingDmrData then .dmrdStep
  else if s.fsm = processingDStar then (if s.dst.dstPos.toNat < 72 then .dstvBit else .dstdBit)
  else .dsthBit

/-- The rows of the frame-type codes 0 to 19 with their codes (R62). -/
def ftypeCodes : List (Instr × Ftype) :=
  [ (.ftypeP25p1, 0), (.ftypeP25p1Inv, 1), (.ftypeX2tdmaData, 2), (.ftypeX2tdmaVoiceInv, 3), (.ftypeX2tdmaVoice, 4)
  , (.ftypeX2tdmaDataInv, 5), (.ftypeDstar, 6), (.ftypeDstarInv, 7), (.ftypeNxdnVoice, 8), (.ftypeNxdnVoiceInv, 9)
  , (.ftypeDmrData, 10), (.ftypeDmrVoiceInv, 11), (.ftypeDmrVoice, 12), (.ftypeDmrDataInv, 13), (.ftypeProvoice, 14)
  , (.ftypeProvoiceInv, 15), (.ftypeNxdnData, 16), (.ftypeNxdnDataInv, 17), (.ftypeDstarhd, 18)
  , (.ftypeDstarhdInv, 19) ]

/-- The host's operations (R77): the only ones it can issue (R74). -/
inductive HostOp where
  | reset
  | push (v : Sample)
  deriving DecidableEq, Repr

/-- The instruction of a host operation. -/
def HostOp.instr : HostOp → Instr
  | .reset => .uopOrcReset
  | .push v => .uopOrcPush v

/-- A stimulus program as the command words the host issues. -/
def stimulus (ops : List HostOp) : List CommandWord := ops.map fun o => encode o.instr

/-- `PUSHSYM v n` (R78): `PUSH v` repeated `SPS` times, n times over. -/
def pushSym (c : Config) (v : Int) (n : Nat) : List HostOp := List.replicate (n * c.sps) (.push (s16 v))

/-- The level of a quaternary digit in `PUSHPAT` (R78). -/
def patLevel (a : Int) (d : Dibit) : Int :=
  if d = 1 then a else if d = 0 then a.tdiv 3 else if d = 2 then -(a.tdiv 3) else -a

/-- `PUSHPAT "p" A` (R78). -/
def pushPat (c : Config) (p : List Dibit) (a : Int) : List HostOp := p.flatMap fun d => pushSym c (patLevel a d) 1

/-- `PUSHBITS "b" A` (R78). -/
def pushBits (c : Config) (b : List Bool) (a : Int) : List HostOp := b.flatMap fun x => pushSym c (if x then -a else a) 1

end Sys2Proof.Machine
end

