-- ==== Sys2Proof/Safety.lean ====
section
/-! DEFINITION. What counts as a safe state and a safe run: the codes, positions and memories as the rules leave them,
the consistency of a lock, and what the host sees of a run (spec/47_orchestrator.md R208). -/

namespace Sys2Proof.Machine

/-- A frame-type register holds -1 or 0 to 19 (R61). -/
def ftypeOk (c : Ftype) : Prop := -1 ≤ c.toInt ∧ c.toInt ≤ 19

/-- The history is in canonical form and its pointer and entries are inside the ring (R41). -/
structure HistOk (s : State) : Prop where
  wf : histWf s.hist.cells = true
  inside : ∀ p ∈ s.hist.cells, p.1 < s.cfg.histCap
  pointer : s.hist.wp < s.cfg.histCap

/-- No register holds a reserved code (R59, R61, R63, R65, R69, R75) or points outside its space (R40). -/
structure CodesOk (s : State) : Prop where
  fsm : s.fsm.toNat ≤ 4
  rfMod : s.car.rfMod ≠ 3
  window : ∀ e ∈ s.fs.window.toList, e.toNat ≤ 4
  light : ∀ e ∈ s.dmr.slotlight.toList, e ≠ 3
  synctype : ftypeOk s.car.synctype
  lastsynctype : ftypeOk s.car.lastsynctype
  hint : ftypeOk s.fs.hint
  lidx : s.fs.lidx.toNat < 24

/-- The symbol period in progress: its length is within one sample of `SPS`, and the sample index is inside it
(R16, R86). -/
structure PeriodOk (s : State) : Prop where
  plen : s.str.plen.toNat + 1 = s.cfg.sps ∨ s.str.plen.toNat = s.cfg.sps ∨ s.str.plen.toNat = s.cfg.sps + 1
  sidx : s.str.sidx.toNat < s.str.plen.toNat

/-- What every step of the machine keeps, whatever operation it performs. -/
structure Inv (s : State) : Prop where
  legal : configLegal s.cfg = true
  fixed : s.cfg = s.cfgReset
  hist : HistOk s
  codes : CodesOk s
  period : PeriodOk s
  levels : levels s.car = s.car

/-- The frame-type codes with which each protocol state is entered (R204, R207). -/
def lockCodes (fsm : BitVec 3) : List Ftype :=
  if fsm = processingDmrVoice then [11, 12]
  else if fsm = processingDmrData then [10, 13]
  else if fsm = processingDStar then [6, 7]
  else if fsm = processingDStarHeader then [18, 19]
  else [ftypeNone]

/-- The sample indices of the averaging window below `n`: how many samples of a period have been averaged once `n` have
been taken (R83). -/
def windowCount (w : Window) (n : Nat) : Nat := min n (w.hi + 1) - w.lo

/-- What every operation the host can issue keeps: the invariant of all steps, the consistency of the lock with its code
(R109), the count of averaged samples (R83), and the bound of a D-STAR position and of a header count (R16). -/
structure HostInv (s : State) : Prop where
  inv : Inv s
  lock : s.car.synctype ∈ lockCodes s.fsm
  count : s.str.cnt.toNat = windowCount (winOf s.cfg s.car.rfMod) s.str.sidx.toNat
  dstar : s.fsm = processingDStar → s.dst.dstPos.toNat < Config.voiceSegment + s.cfg.dstarDataSyms
  header : s.fsm = processingDStarHeader → s.hdr.hdCnt.toNat < Config.headerSymbols

/-- An instruction the host can issue (R74). -/
def HostIssued (i : Instr) : Prop := i = .uopOrcReset ∨ ∃ v, i = .uopOrcPush v

/-- What `RESET` leaves (R235): every register and memory of the table, the configuration unchanged, and what the status
registers then read. -/
structure AtReset (c : Config) (t : State) : Prop where
  fsm : t.fsm = 0
  thresholds : t.car.max.toInt = 15000 ∧ t.car.min.toInt = -15000 ∧ t.car.center.toInt = 0
  midLevels : t.car.umid.toInt = 9375 ∧ t.car.lmid.toInt = -9375
  lockMemory : t.car.rfMod = 0 ∧ t.car.carrier = false ∧ t.car.synctype.toInt = -1 ∧ t.car.lastsynctype.toInt = -1
  hints : t.fs.hint.toInt = -1 ∧ t.fs.tHint = 0
  timing : t.str.sidx = 0 ∧ t.str.sum = 0 ∧ t.str.cnt = 0 ∧ t.str.last = 0 ∧ t.str.numflips = 0 ∧ t.str.symbol = 0
  period : t.str.plen.toNat = c.sps ∧ t.str.jitter.toInt = -1
  majority : t.maj.npos = 0 ∧ t.maj.nneg = 0 ∧ t.maj.maj = 0
  buffer : (∀ v ∈ t.fs.lbuf.toList, v = 0) ∧ t.fs.lidx = 0
  window : ∀ e ∈ t.fs.window.toList, e = 4
  search : t.fs.t = 0 ∧ t.fs.lastt = 0 ∧ t.fs.synctestPos = 0
  history : (∀ a, histRead t.hist.cells a = 0) ∧ t.hist.wp = 0
  positions : t.dmr.symbolIndex = 0 ∧ t.dmr.dcount = 0 ∧ t.dst.dstPos = 0 ∧ t.hdr.hdCnt = 0
  fields : (∀ d ∈ t.dmr.cach.toList ++ t.dmr.cach2.toList, d = 0) ∧
    ∀ d ∈ t.dmr.syncf.toList ++ t.dmr.sync2.toList, d = 0
  slots : t.dmr.currentslot = false ∧ t.dmr.mute = false ∧ t.dmr.msMode = false ∧ t.dmr.slotlight[0] = 0 ∧
    t.dmr.slotlight[1] = 0
  burst : t.dmr.slottype = 0 ∧ t.dmr.bursttype = 0
  frames : t.dmr.fr1 = 0 ∧ t.dmr.fr2 = 0 ∧ t.dmr.fr3 = 0 ∧ t.dst.dfr = 0
  dstar : t.dst.bitbuf = 0 ∧ t.dst.miss = 0 ∧ t.dst.dphase = 0 ∧ t.dst.dfirst = true
  bytes : (∀ b ∈ t.dst.slow.toList, b = 0) ∧ ∀ b ∈ t.hdr.header.toList, b = 0
  config : t.cfg = c
  status : List.ofFn (statusReg t) = [0x0FFF, 0, 0x0100, 0x3A98, 0xC568, 0, 0x249F, 0xDB61, 0]

/-- `s` with the registers cleared that the block reads nowhere but in status or in an event of the operation that wrote
them (the "status only" rows of R12, R13, R17, and R20). -/
def eraseStatus (s : State) : State :=
  { s with
    maj.maj := 0
    car.carrier := false, car.lastsynctype := ftypeNone
    dmr.cach := Vector.replicate 12 0, dmr.cach2 := Vector.replicate 12 0, dmr.sync2 := Vector.replicate 24 0
    dmr.msMode := false, dmr.slotlight := Vector.replicate 2 lightIdle
    hdr.header := Vector.replicate 41 0 }

/-- The concatenation of the event lists of at most `n` steps (R208): what the host sees of a run. -/
def observed : Nat → State → List Event
  | 0, _ => []
  | n + 1, s =>
    match step s with
    | .next t => t.events ++ observed n t
    | .fault _ => []
    | .refused _ => []

end Sys2Proof.Machine
end

