-- ==== Sys2Proof/Certificates/Slice0/Obligations.lean ====
section
/-! DEFINITION. The statements for the provers, one `def Obligations.<Name> : Prop` each, grouped by the spec files whose
rules they state. A statement about one operation gives the whole next state, so that everything it does not name is
unchanged. `countUp`, `fitU` and `fitS` write the number itself where it fits the register and a free value where it does
not (notes/assumptions/14.md, `Obligations.NumbersThatFitAreWrittenExactly`). -/

open Sys2Proof Sys2Proof.Machine

/-! ### Encodings (spec/30_encoding.md) -/

/-- Decoding what the encoder writes gives the instruction back, for every instruction and operand (R55, R74; the format
byte and the operand fields are the model's, notes/assumptions/2.md). -/
def Obligations.DecodeInvertsEncode : Prop := ∀ i : Instr, i.WellFormed → decode (encode i) = .ok i

/-- A decoded instruction is well formed, and its word is the one the encoder writes, but for the five rows whose mask
leaves bits free (R58, R75). -/
def Obligations.DecodedIsWellFormedAndReencodes : Prop :=
  ∀ (w : CommandWord) (i : Instr), decode w = .ok i →
    i.WellFormed ∧
      (i ∉ ([.fsStep, .dmrdStep, .dsthBit, .dispatchReserved5, .dispatchReserved67] : List Instr) → encode i = w)

/-- Words written out from the spec's code tables (R58, R62, R63, R65, R69, R64, R68, R74, R216) decode to their rows. -/
def Obligations.SpecWordsDecodeToTheirRows : Prop :=
  decode 0x1B = .ok (.dmrvTail 0 0) ∧ decode 0x31 = .ok .dstdBit ∧ decode 0x010C = .ok .ftypeDmrVoice ∧
    decode 0x013F = .ok .ftypeNone ∧ decode 0x0214 = .ok .uopOrcReset ∧ decode 0xE0C00213 = .ok (.uopOrcPush (s16 (-8000))) ∧
    decode 0x0302 = .ok .rfmodGfsk ∧ decode 0x0404 = .ok .wentE ∧ decode 0x0501 = .ok .slotlightData ∧
    decode 0x0601 = .ok .dibitRawAboveUmid ∧ decode 0x0703 = .ok .burstCsbk ∧ decode 0x0808 = .ok .condForeignsync

/-- `slotIndex` and the offset inside the slot for every position (R67). -/
def Obligations.SlotIndexAndOffsetFollowTheTable : Prop :=
  ∀ p : Nat,
    slotIndex p =
      (if p < 54 then 0 else if p < 66 then 1 else if p < 102 then 2 else if p < 120 then 3 else if p < 144 then 4
        else if p < 162 then 5 else if p < 198 then 6 else if p < 210 then 7 else if p < 264 then 8
        else if p < 288 then 9 else 10) ∧
    (p < 288 → slotOffsetOf p =
      (if p < 54 then p else if p < 66 then p - 54 else if p < 102 then p - 66 else if p < 120 then p - 102
        else if p < 144 then p - 120 else if p < 162 then p - 144 else if p < 198 then p - 162
        else if p < 210 then p - 198 else if p < 264 then p - 210 else p - 264))

/-- The dispatch word of every state is a code of the row that the table of R58 gives its `fsm` and position, `sub` by
R60. -/
def Obligations.DispatchWordSelectsItsRow : Prop :=
  ∀ s : State,
    let idx := s.dmr.symbolIndex.toNat
    let row := decode (dispatchWord s).toNat
    (s.fsm = 0 → row = .ok .fsStep) ∧
    (s.fsm = 1 → s.cfg.dmrVoiceBlocks ≤ idx / 288 → row = .ok (.dmrvTail 0 0)) ∧
    (s.fsm = 1 → idx / 288 < s.cfg.dmrVoiceBlocks → row = .ok (slotRow (slotIndex (idx % 288)) 0 0)) ∧
    (s.fsm = 2 → row = .ok .dmrdStep) ∧
    (s.fsm = 3 → s.dst.dstPos.toNat < 72 → row = .ok .dstvBit) ∧
    (s.fsm = 3 → 72 ≤ s.dst.dstPos.toNat → row = .ok .dstdBit) ∧
    (s.fsm = 4 → row = .ok .dsthBit) ∧
    (s.fsm = 5 → row = .ok .dispatchReserved5) ∧
    (6 ≤ s.fsm.toNat → row = .ok .dispatchReserved67)

/-- The reserved codes of the dispatch word, of `rf_mod` and of a slot light are refused in every state (R75), and a slot row
whose offset would index past an array or a ROM is refused in every state that runs the others (R40). -/
def Obligations.ReservedRowsAreRefused : Prop :=
  ∀ s : State,
    exec .dispatchReserved5 s = .refused .reservedDispatch ∧ exec .dispatchReserved67 s = .refused .reservedDispatch ∧
      exec .rfmodReserved s = .refused .reservedModulationCode ∧
      exec .slotlightReserved s = .refused .reservedLightCode ∧
      ∀ (d : Dibit) (k : BitVec 6), Ready s →
        (12 ≤ k.toNat → exec (.dmrvSlot1 d k) s = .refused .slotOffset ∧ exec (.dmrvSlot7 d k) s = .refused .slotOffset) ∧
        (18 ≤ k.toNat → exec (.dmrvSlot5 d k) s = .refused .slotOffset) ∧
        (24 ≤ k.toNat → exec (.dmrvSlot4 d k) s = .refused .slotOffset ∧ exec (.dmrvSlot9 d k) s = .refused .slotOffset) ∧
        (36 ≤ k.toNat → exec (.dmrvSlot2 d k) s = .refused .slotOffset ∧ exec (.dmrvSlot3 d k) s = .refused .slotOffset ∧
          exec (.dmrvSlot6 d k) s = .refused .slotOffset)

/-! ### The step and what a state must be (spec/47_orchestrator.md, R5, R53, R75, R232) -/

/-- A step performs the instruction its next command word decodes to, on the state with the word taken and no event or
result yet; it idles without a word and refuses a word that decodes to nothing (the command stream is the model's,
notes/assumptions/1.md). -/
def Obligations.StepRunsTheDecodedInstruction : Prop :=
  (∀ (s : State) (w : CommandWord) (rest : List CommandWord) (i : Instr), s.input = w :: rest → decode w = .ok i →
    step s = exec i { s with input := rest, events := [], ret := .none }) ∧
  (∀ (s : State) (w : CommandWord) (rest : List CommandWord) (e : DecodeError), s.input = w :: rest →
    decode w = .error e → step s = .refused (.undecodable e)) ∧
  ∀ s : State, s.input = [] → step s = .next { s with events := [], ret := .none }

/-- What makes a state one that operations run in, and that every instruction but `ORC.RESET` is refused in any other (R5,
R53, R75, R232; the order of the checks is the model's, notes/assumptions/15.md). -/
def Obligations.OnlyReadyStatesRun : Prop :=
  (∀ s : State, Ready s ↔
    configLegal s.cfg = true ∧ s.cfg = s.cfgReset ∧ s.fsm.toNat ≤ 4 ∧ s.car.rfMod ≠ 3 ∧
      (∀ e ∈ s.fs.window.toList, e.toNat ≤ 4) ∧ (∀ e ∈ s.dmr.slotlight.toList, e ≠ 3) ∧ s.fs.lidx.toNat < 24 ∧
      s.hist.wp < s.cfg.histCap) ∧
  ∀ (i : Instr) (s : State), i ≠ .uopOrcReset → ¬ Ready s → ∃ r, exec i s = .refused r

/-! ### Reset (spec/70_reset_and_hazards.md) -/

/-- After `ORC.RESET` from any state with a legal configuration, and in the machine's reset state, everything holds the
value of R235's table, no event is returned, and nothing else survives (R212, R235). -/
def Obligations.ResetLeavesTheTableValues : Prop :=
  AtReset decided State.reset ∧
  ∀ s : State, configLegal s.cfg = true →
    ∃ t, exec .uopOrcReset s = .next t ∧ AtReset s.cfg t ∧ t.events = []

/-- `FS.NOCARRIER` followed by `ORC.TOSEARCH` leaves the reset value in every register those two write and everything
else as it was (R236). -/
def Obligations.CarrierLossIsAPartialReset : Prop :=
  ∀ s : State, Ready s →
    let r := State.resetWith s.cfg s.input
    ∃ t, exec .uopFsNocarrier s = .next t ∧
      exec .uopOrcTosearch t = .next { s with
        fsm := r.fsm
        car := { r.car with rfMod := s.car.rfMod }
        fs := { r.fs with lbuf := s.fs.lbuf, lidx := s.fs.lidx }
        str.jitter := r.str.jitter, str.numflips := r.str.numflips
        dmr.mute := r.dmr.mute, dmr.msMode := r.dmr.msMode, dmr.slotlight := r.dmr.slotlight }

/-! ### Numbers into registers (R7, R36) -/

/-- A number a rule gives a register is written as it is wherever it fits the register (R7, R36); where it does not, the
spec states no result and the register takes a free value (notes/assumptions/14.md). -/
def Obligations.NumbersThatFitAreWrittenExactly : Prop :=
  (∀ (w : Nat) (r : Counter) (n : Nat),
    (n < 2 ^ w → (fitU w r n).toNat = n) ∧ (2 ^ w ≤ n → fitU w r n = Config.pastWidth w r n)) ∧
  (∀ (w : Nat) (r : Counter) (x : Int), 0 < w →
    (-(2 ^ (w - 1)) ≤ x → x < 2 ^ (w - 1) → (fitS w r x).toInt = x) ∧
    (x < -(2 ^ (w - 1)) ∨ 2 ^ (w - 1) ≤ x → fitS w r x = Config.pastWidth w r x)) ∧
  ∀ (w : Nat) (r : Counter) (v : BitVec w), v.toNat + 1 < 2 ^ w → (countUp r v).toNat = v.toNat + 1

/-! ### Status and configuration registers (spec/10_state.md R24, R25, R29) -/

/-- The status registers S0 to S8 have the fields of R29's table, the configuration registers C0 to C5 those of R24 and
R25, with the decided values. -/
def Obligations.NumberedRegistersHaveTheirFields : Prop :=
  (∀ s : State,
    ((statusReg s 0).extractLsb' 0 6 = s.car.synctype ∧ (statusReg s 0).extractLsb' 6 6 = s.car.lastsynctype ∧
      (statusReg s 0).extractLsb' 12 2 = s.car.rfMod ∧ (statusReg s 0).getLsbD 14 = s.car.carrier ∧
      (statusReg s 0).getLsbD 15 = decide (s.fsm ≠ 0)) ∧
    ((statusReg s 1).getLsbD 0 = s.dmr.currentslot ∧ (statusReg s 1).getLsbD 1 = s.dmr.mute ∧
      (statusReg s 1).getLsbD 2 = s.dmr.msMode ∧ (statusReg s 1).extractLsb' 3 2 = s.dmr.slotlight[0] ∧
      (statusReg s 1).extractLsb' 5 2 = s.dmr.slotlight[1] ∧ (statusReg s 1).extractLsb' 7 4 = s.dmr.slottype ∧
      (statusReg s 1).extractLsb' 11 4 = s.dmr.bursttype ∧ (statusReg s 1).getLsbD 15 = false) ∧
    ((statusReg s 2).extractLsb' 0 8 = s.dst.miss ∧ (statusReg s 2).getLsbD 8 = s.dst.dfirst ∧
      (statusReg s 2).extractLsb' 9 7 = 0) ∧
    (statusReg s 3 = s.car.max ∧ statusReg s 4 = s.car.min ∧ statusReg s 5 = s.car.center ∧ statusReg s 6 = s.car.umid ∧
      statusReg s 7 = s.car.lmid) ∧
    (statusReg s 8).extractLsb' 0 3 = s.fsm ∧ (statusReg s 8).extractLsb' 3 2 = s.maj.maj ∧
      (statusReg s 8).extractLsb' 5 11 = 0) ∧
  List.ofFn (statusReg State.reset) = [0x0FFF, 0, 0x0100, 0x3A98, 0xC568, 0, 0x249F, 0xDB61, 0] ∧
  List.ofFn (configReg decided) = [0x0F24, 26, 0x040A, 0x0603, 0x0503, 0x0503] ∧
  ∀ c : Config, configLegal c = true →
    ([0, 1, 2, 3, 4, 5, 6, 7, 8, 9, 10, 11].map (configReg c 0).getLsbD =
      [c.enP25p1, c.enX2tdma, c.enDmr, c.enProvoice, c.enNxdn, c.enDstar, c.invX2tdma, c.invDmr, c.modC4fm, c.modQpsk,
        c.modGfsk, c.nudgeInSync]) ∧
    (configReg c 0).extractLsb' 12 4 = 0 ∧
    (configReg c 1).toNat = c.modThreshold ∧
    ((configReg c 2).extractLsb' 0 8).toNat = c.sps ∧ ((configReg c 2).extractLsb' 8 8).toNat = c.center ∧
    (((configReg c 3).extractLsb' 0 8).toNat = c.winC4fm.lo ∧ ((configReg c 3).extractLsb' 8 8).toNat = c.winC4fm.hi) ∧
    (((configReg c 4).extractLsb' 0 8).toNat = c.winQpsk.lo ∧ ((configReg c 4).extractLsb' 8 8).toNat = c.winQpsk.hi) ∧
    ((configReg c 5).extractLsb' 0 8).toNat = c.winGfsk.lo ∧ ((configReg c 5).extractLsb' 8 8).toNat = c.winGfsk.hi

/-! ### Invariants -/

/-- The machine's reset state meets both invariants. -/
def Obligations.ResetMeetsTheInvariants : Prop := Inv State.reset ∧ HostInv State.reset

/-- EVERY step keeps the invariant of all steps, whatever instruction it performs: the history canonical and inside its
ring, no reserved code in a register, `plen` within one of `SPS`, the levels consistent, the configuration unchanged. -/
def Obligations.EveryStepKeepsTheInvariant : Prop :=
  ∀ s t : State, Inv s → step s = .next t → Inv t

/-- Every operation the host can issue keeps the host's invariant: the lock agrees with `fsm`, the averaging count with
the sample index, the D-STAR position with its segment, the header count with 660. -/
def Obligations.HostOperationsKeepTheHostInvariant : Prop :=
  ∀ (i : Instr) (s t : State), HostIssued i → HostInv s → exec i s = .next t → HostInv t

/-- `ORC.PUSH` and `ORC.RESET` are total on states that meet the host's invariant: every sample is accepted (R213, R215,
R226). -/
def Obligations.HostOperationsAreTotal : Prop :=
  ∀ (i : Instr) (s : State), HostIssued i → HostInv s → ∃ t, exec i s = .next t

/-- The empty averaging window cannot occur: the sample that completes a period leaves at least one sample averaged
(R85, R220). -/
def Obligations.EmptyWindowIsUnreachable : Prop :=
  ∀ (s : State) (v : Sample), HostInv s → s.str.sidx.toNat + 1 = s.str.plen.toNat →
    0 < (strIntake v (haveSync s) s).str.cnt.toNat

/-! ### The orchestrator (spec/47_orchestrator.md) -/

/-- `ORC.PUSH` is `STR.PUSH` with `haveSync`, and then, exactly when a symbol is complete, the operation the dispatch word
of the state at the start of the step selects, on the symbol just written (R58, R200, R202). -/
def Obligations.PushRunsTimingThenTheSelectedRow : Prop :=
  ∀ (s : State) (v : Sample), Ready s →
    ∃ u, exec (.uopStrPush v (decide (s.fsm ≠ 0))) { s with events := [] } = .next u ∧
      (u.ret = .symbol none → exec (.uopOrcPush v) s = .next { u with ret := s.ret }) ∧
      ∀ y, u.ret = .symbol (some y) →
        exec (.uopOrcPush v) s = exec (symbolRow s) { u with ret := s.ret, str.symbol := y }

/-- One sample pushes exactly one entry into the history when it completes a symbol, none when it does not (R121, R201). -/
def Obligations.OneHistoryEntryPerSymbol : Prop :=
  ∀ (s t : State) (v : Sample), exec (.uopOrcPush v) s = .next t →
    ((strPush v (haveSync s) s).2 = none → t.hist = s.hist) ∧
    ((strPush v (haveSync s) s).2 ≠ none →
      ∃ d, t.hist = ⟨histWrite s.hist.cells s.hist.wp d, (s.hist.wp + 1) % s.cfg.histCap⟩)

/-- The transition relation of `fsm` over one sample (R207): which states follow a state, by what; there is no way from
one protocol state to another. The ends compare the counters after their step; what a counter past its width holds is
the model's free value, no rule of the spec (notes/assumptions/14.md). -/
def Obligations.FsmFollowsTheTransitionTable : Prop :=
  ∀ (s t : State) (v : Sample), exec (.uopOrcPush v) s = .next t →
    ((strPush v (haveSync s) s).2 = none → t.fsm = s.fsm) ∧
    (∀ y, (strPush v (haveSync s) s).2 = some y →
      (s.fsm = 0 →
        let r := (fsStep y (strPush v false s).1).2
        ((r = .none ∨ r = .noSync) → t.fsm = 0) ∧
        (∀ code, r = .sync code →
          (code = 11 ∨ code = 12 → t.fsm = 1) ∧ (code = 10 ∨ code = 13 → t.fsm = 2) ∧
          (code = 6 ∨ code = 7 → t.fsm = 3) ∧ (code = 18 ∨ code = 19 → t.fsm = 4) ∧
          (code ∉ ([6, 7, 10, 11, 12, 13, 18, 19] : List Ftype) → t.fsm = 0))) ∧
      (s.fsm = 1 → t.fsm = if s.cfg.dmrVoiceEnd ≤ (countUp .symbolIndex s.dmr.symbolIndex).toNat then 0 else 1) ∧
      (s.fsm = 2 → t.fsm = if s.cfg.dmrDataSpan ≤ (countUp .dcount s.dmr.dcount).toNat then 0 else 2) ∧
      (s.fsm = 3 → (t.fsm = 3 ∨ t.fsm = 0) ∧
        (t.fsm = 0 ↔ (countUp .dstPos s.dst.dstPos).toNat = 72 + s.cfg.dstarDataSyms ∧
          (Event.endOfTx ∈ t.events ∨ s.cfg.dstarMissLimit ≤ t.dst.miss.toNat))) ∧
      (s.fsm = 4 → t.fsm = if (countUp .hdCnt s.hdr.hdCnt).toNat = 660 then 0 else 4))

/-- The registers that are "status only" (R12, R13, R17) and `header` (R20) influence nothing: two states that agree in all
others, and whose slot lights hold no reserved code (R75), take the same samples to states that agree in all others, with the
same events. -/
def Obligations.StatusOnlyRegistersInfluenceNothing : Prop :=
  ∀ (s s' t : State) (v : Sample), eraseStatus s = eraseStatus s' → (∀ e ∈ s'.dmr.slotlight.toList, e ≠ 3) →
    exec (.uopOrcPush v) s = .next t → ∃ t', exec (.uopOrcPush v) s' = .next t' ∧ eraseStatus t = eraseStatus t' ∧ t.events = t'.events

/-! ### Symbol timing and majority (spec/40_symbol_timing.md) -/

/-- `STR.PUSH` with all its sub-rules, inside a period and at its boundary (R80 to R88), for a sample index inside its
period. A sum or count past its width is the model's free value, no rule of the spec (notes/assumptions/14.md). -/
def Obligations.StrPushFollowsItsSubRules : Prop :=
  ∀ (s : State) (v : Sample) (sync : Bool), Ready s → s.str.sidx.toNat < s.str.plen.toNat →
    let c : Sample :=
      if sync = true ∧ s.car.rfMod = 0 then
        (if s.car.max.toInt < v.toInt then s.car.max else if v.toInt < s.car.min.toInt then s.car.min else v)
      else v
    let center := s.car.center.toInt
    let cross : Bool :=
      decide (center < c.toInt ∧ s.str.last.toInt < center ∨ c.toInt < center ∧ center < s.str.last.toInt)
    let event : Bool :=
      if s.car.rfMod = 1 then decide (s.car.max.toInt < c.toInt ∨ c.toInt < s.car.min.toInt) else cross
    let w := if s.car.rfMod = 1 then s.cfg.winQpsk else if s.car.rfMod = 2 then s.cfg.winGfsk else s.cfg.winC4fm
    let inside : Bool := decide (w.lo ≤ s.str.sidx.toNat ∧ s.str.sidx.toNat ≤ w.hi)
    let u : State := { s with
      str.numflips :=
        if cross = true ∧ sync = false ∧ s.str.numflips.toNat < 65535 then s.str.numflips + 1 else s.str.numflips
      str.jitter := if s.str.jitter.toInt < 0 ∧ event = true then s.str.sidx.setWidth 10 else s.str.jitter
      str.last := c
      str.sum := if inside = true then fitS 32 .sum (s.str.sum.toInt + c.toInt) else s.str.sum
      str.cnt := if inside = true then countUp .cnt s.str.cnt else s.str.cnt
      maj.npos := if inside = true ∧ center < c.toInt then countUp .npos s.maj.npos else s.maj.npos
      maj.nneg := if inside = true ∧ c.toInt < center then countUp .nneg s.maj.nneg else s.maj.nneg
      str.sidx := countUp .sidx s.str.sidx }
    let j := u.str.jitter.toInt
    let n : Nat :=
      if sync = false ∨ s.cfg.nudgeInSync = true then
        (if s.car.rfMod = 1 then
          (if 0 ≤ j ∧ j < s.cfg.center then s.cfg.sps - 1 else if s.cfg.center < j ∧ j < s.cfg.sps then s.cfg.sps + 1
            else s.cfg.sps)
        else
          (if 0 < j ∧ j ≤ s.cfg.center then s.cfg.sps + 1 else if s.cfg.center < j ∧ j < s.cfg.sps then s.cfg.sps - 1
            else s.cfg.sps))
      else s.cfg.sps
    (s.str.sidx.toNat + 1 < s.str.plen.toNat →
      exec (.uopStrPush v sync) s = .next { u with ret := .symbol none }) ∧
    (s.str.sidx.toNat + 1 = s.str.plen.toNat →
      exec (.uopStrPush v sync) s = .next { u with
        maj.maj := if u.maj.nneg < u.maj.npos then 1 else if u.maj.npos < u.maj.nneg then -1 else 0
        str.plen := BitVec.ofNat 9 n
        str.sidx := 0, str.sum := 0, str.cnt := 0, maj.npos := 0, maj.nneg := 0, str.jitter := -1
        ret := .symbol (some (if u.str.cnt = 0 then 0 else fitS 16 .symbol (u.str.sum.toInt.tdiv u.str.cnt.toNat))) })

/-- The majority verdict (R87); nothing else is written. -/
def Obligations.MajorityVoteIsTheSignMajority : Prop :=
  ∀ s : State, Ready s →
    exec .uopMajVote s = .next { s with
      maj.maj := if s.maj.nneg.toNat < s.maj.npos.toNat then 1 else if s.maj.npos.toNat < s.maj.nneg.toNat then -1 else 0 }

/-- Over a whole period the one symbol, emitted by the last sample and by none before it, is the exact truncated mean of the clamped samples in
the window, and lies between any bounds of those samples: no sum or count overflows (R36, R83, R85, R89 (a), (d), (e)). -/
def Obligations.PeriodSymbolIsTheWindowMean : Prop :=
  ∀ (s : State) (sync : Bool) (l : List Sample), Ready s →
    s.str.sidx = 0 → s.str.sum = 0 → s.str.cnt = 0 → 0 < l.length → l.length = s.str.plen.toNat →
    s.cfg.sps ≤ l.length + 1 →
    let ws := windowSamples (winOf s.cfg s.car.rfMod) 0 (l.map (clamp s.car sync))
    ∃ y : Sample, (strRun sync l s).2 = [y] ∧ (∀ n, n < l.length → (strRun sync (l.take n) s).2 = []) ∧ 0 < ws.length ∧ y.toInt = (sampleSum ws).tdiv ws.length ∧
      ∀ lo hi : Int, (∀ x ∈ ws, lo ≤ x.toInt ∧ x.toInt ≤ hi) → lo ≤ y.toInt ∧ y.toInt ≤ hi

/-! ### Frame sync (spec/41_frame_sync.md) -/

/-- What `FS.STEP` writes for any symbol before it looks for a match: buffer and history, modulation window and
hypothesis, sync window, hint age (R96, R97, R98, R99, R106 (a)). A counter past its width is the model's free value, no rule
of the spec (notes/assumptions/14.md). -/
def Obligations.SearchIntakeWritesTheSymbol : Prop :=
  ∀ (s : State) (v : Sample),
    let d : Dibit := if s.car.center.toInt < v.toInt then 1 else 3
    let flips := s.str.numflips.toNat
    let m : BitVec 2 := if s.cfg.modThreshold < flips then 1 else if 18 < flips then 2 else 0
    let enabled : Bool :=
      if s.cfg.modThreshold < flips then s.cfg.modQpsk else if 18 < flips then s.cfg.modGfsk else s.cfg.modC4fm
    searchIntake v s = { s with
      fs.lbuf := s.fs.lbuf.setIfInBounds s.fs.lidx.toNat v
      fs.lidx := BitVec.ofNat 5 ((s.fs.lidx.toNat + 1) % 24)
      hist := ⟨histWrite s.hist.cells s.hist.wp d, (s.hist.wp + 1) % s.cfg.histCap⟩
      fs.lastt := if s.fs.lastt = 23 then 0 else countUp .lastt s.fs.lastt
      car.rfMod := if s.fs.lastt = 23 ∧ enabled = true then m else s.car.rfMod
      str.numflips := if s.fs.lastt = 23 then 0 else s.str.numflips
      fs.window := shiftIn s.fs.window (d.setWidth 3)
      fs.t := if s.fs.t.toNat < 2047 then s.fs.t + 1 else s.fs.t
      fs.tHint := if 0 ≤ s.fs.hint.toInt then countUp .tHint s.fs.tHint else s.fs.tHint } ∧
    (∀ (i : Nat) (h : i < 31), (searchIntake v s).fs.window[i] = s.fs.window[i + 1]) ∧
    (searchIntake v s).fs.window[31] = d.setWidth 3

/-- `first_match()` (R100, R102): the first enabled row in table order whose digits all stand in the trailing entries of
the window, once 18 symbols have been observed. -/
def Obligations.FirstMatchIsTheFirstEnabledMatchingRow : Prop :=
  ∀ (s : State) (r : SyncRow), configLegal s.cfg = true →
    let matching : SyncRow → Prop := fun q =>
      protocolEnabled s.cfg q.proto = true ∧
        ∃ p, q.pattern = some p ∧
          ∀ i, i < q.len → (s.fs.window.toList[32 - q.len + i]?) = (p[i]?).map (BitVec.setWidth 3)
    (firstMatch s = some r ↔
      18 ≤ s.fs.t.toNat ∧
        ∃ before after, s.cfg.romSync = before ++ r :: after ∧ matching r ∧ ∀ q ∈ before, ¬ matching q)

/-- The three ways `FS.STEP` goes after its intake: no match, a confirmed match, a pending first hit (R95, R101, R105). -/
def Obligations.FsStepGoesOneOfThreeWays : Prop :=
  ∀ (s : State) (v : Sample), Ready s →
    let u := searchIntake v s
    (firstMatch u = none →
      exec (.uopFsStep v) s = .next { (searchMiss u).1 with ret := .sync (searchMiss u).2 }) ∧
    ∀ r, firstMatch u = some r →
      let code : Ftype :=
        if r.proto = .dmr then (if s.cfg.invDmr = true then r.code1 else r.code0)
        else if r.proto = .x2tdma then (if s.cfg.invX2tdma = true then r.code1 else r.code0)
        else r.code0
      let pair : List Ftype := if code ∈ ([8, 16] : List Ftype) then [8, 16] else [9, 17]
      let k := recalibrate u
      ((r.twoHit = false ∨ u.fs.hint ∈ pair) →
        exec (.uopFsStep v) s = .next { k with fs.hint := -1, fs.tHint := 0, ret := .sync (.sync code) }) ∧
      (r.twoHit = true → u.fs.hint ∉ pair →
        let p : State := { k with fs.hint := code, fs.tHint := 0 }
        exec (.uopFsStep v) s = .next { (searchMiss p).1 with ret := .sync (searchMiss p).2 })

/-- A symbol without a confirmed match: hint expiry, then the carrier watch (R106 (b), R107, R108). A counter past its width
is the model's free value, no rule of the spec (notes/assumptions/14.md). -/
def Obligations.SearchMissExpiresTheHintAndWatchesTheCarrier : Prop :=
  ∀ s : State,
    let e : State :=
      if 0 ≤ s.fs.hint.toInt ∧ s.cfg.hintWindow ≤ s.fs.tHint.toNat then { s with fs.hint := -1, fs.tHint := 0 } else s
    let m : State := { e with fs.synctestPos := countUp .synctestPos s.fs.synctestPos }
    (s.cfg.carrierTimeout ≤ (countUp .synctestPos s.fs.synctestPos).toNat → searchMiss s = (noCarrier m, .noSync)) ∧
    ((countUp .synctestPos s.fs.synctestPos).toNat < s.cfg.carrierTimeout → searchMiss s = (m, .none))

/-- `recalibrate()` and `levels()` (R103, R104), with exact results: nothing overflows its register (R36). -/
def Obligations.RecalibrationBlendsTheLocalExtremes : Prop :=
  ∀ s : State, ∃ lmax ∈ s.fs.lbuf.toList, ∃ lmin ∈ s.fs.lbuf.toList,
    (∀ v ∈ s.fs.lbuf.toList, lmin.toInt ≤ v.toInt ∧ v.toInt ≤ lmax.toInt) ∧
    ∃ max min center umid lmid : Sample,
      recalibrate s = { s with
        car.max := max, car.min := min, car.center := center, car.umid := umid, car.lmid := lmid } ∧
      max.toInt = (s.car.max.toInt + lmax.toInt).tdiv 2 ∧ min.toInt = (s.car.min.toInt + lmin.toInt).tdiv 2 ∧
      center.toInt = (max.toInt + min.toInt).tdiv 2 ∧
      umid.toInt = ((max.toInt - center.toInt) * 5).tdiv 8 + center.toInt ∧
      lmid.toInt = ((min.toInt - center.toInt) * 5).tdiv 8 + center.toInt

/-- The document's own sync pattern (R111): with DMR enabled, its 24 digits as the trailing entries give code 12, or 13 with
`INV_DMR`, and no other, in every legal table in which the enabled rows before it have 24 digits and another pattern. -/
def Obligations.DmrBaseStationVoicePatternGivesItsCode : Prop :=
  ∀ (s : State) (v : Sample) (before after : List SyncRow), Ready s → s.cfg.enDmr = true →
    s.cfg.romSync = before ++ ⟨.dmrBsVoiceSync, .dmr, 24, some dmrBsVoiceSyncPattern, 12, 13, false⟩ :: after →
    (∀ q ∈ before, protocolEnabled s.cfg q.proto = true → q.len = 24 ∧ q.pattern ≠ some dmrBsVoiceSyncPattern) →
    24 ≤ (searchIntake v s).fs.t.toNat →
    (searchIntake v s).fs.window.toList.drop 8 = dmrBsVoiceSyncPattern.map (BitVec.setWidth 3) →
    ∃ t, exec (.uopFsStep v) s = .next t ∧ t.ret = .sync (.sync (if s.cfg.invDmr = true then 13 else 12))

/-- After a restart of the search a pattern cannot match before as many symbols as it has digits (R100, R112). -/
def Obligations.NoPatternMatchesBeforeItsLength : Prop :=
  ∀ (s : State) (l : List Sample) (r : SyncRow), configLegal s.cfg = true → r ∈ s.cfg.romSync → l.length < r.len →
    rowMatches (intakeAll l (toSearch s)).fs.window r = false

/-- `FS.NOCARRIER()` writes its list and nothing else (R108). -/
def Obligations.NoCarrierRestoresTheDefaults : Prop :=
  ∀ s : State, Ready s →
    exec .uopFsNocarrier s = .next { s with
      car.max := s16 15000, car.min := s16 (-15000), car.center := 0, car.umid := s16 9375, car.lmid := s16 (-9375)
      fs.hint := -1, fs.tHint := 0
      car.synctype := -1, car.lastsynctype := -1, car.carrier := false
      str.jitter := -1
      dmr.mute := false, dmr.msMode := false, dmr.slotlight := #v[0, 0] }

/-- `ORC.TOSEARCH()` writes its list and nothing else; where the levels already follow from `max` and `min`, its
`levels()` changes nothing (R206). -/
def Obligations.ToSearchRestartsTheSearch : Prop :=
  ∀ s : State, Ready s →
    exec .uopOrcTosearch s = .next { s with
      fsm := 0
      car := levels { s.car with synctype := -1 }
      fs.t := 0, fs.synctestPos := 0, fs.lastt := 0, str.numflips := 0
      fs.window := Vector.replicate 32 4 } ∧
    (levels s.car = s.car → levels { s.car with synctype := -1 } = { s.car with synctype := -1 })

/-- The DISPATCH row `FS.STEP` is `UOP.FS.STEP` on the symbol register with the reaction to its result, and answers a next
state wherever operations run (R200, R203, R204; the row's place in the model is notes/assumptions/4.md). -/
def Obligations.SearchRowReactsToItsResult : Prop :=
  ∀ s : State, Ready s →
    (∃ t, exec .fsStep s = .next t) ∧
    ∃ u, exec (.uopFsStep s.str.symbol) s = .next u ∧
      (u.ret = .sync .none → exec .fsStep s = .next { u with ret := s.ret }) ∧
      (u.ret = .sync .noSync →
        exec .fsStep s = .next (toSearch { u with ret := s.ret, events := s.events ++ [.noSync] })) ∧
      ∀ i code, (i, code) ∈ ftypeCodes → u.ret = .sync (.sync code) → exec .fsStep s = exec i { u with ret := s.ret }

/-! ### Dibits and the history (spec/42_dibit_extractor.md, spec/20_memory.md) -/

/-- `DBT.NEXT()`: the policy of each code, the raw value pushed, the logical value returned; refused without a lock and on
a reserved code (R116 to R121, R75). -/
def Obligations.DbtNextSlicesByFrameType : Prop :=
  ∀ s : State, Ready s →
    let code := s.car.synctype.toInt
    let v := s.str.symbol.toInt
    let above : Bool := decide (s.car.center.toInt < v)
    let outer : Bool := if above then decide (s.car.umid.toInt < v) else decide (v < s.car.lmid.toInt)
    let pushed : Dibit → Dibit → State := fun raw ret =>
      { s with
        hist := ⟨histWrite s.hist.cells s.hist.wp raw, (s.hist.wp + 1) % s.cfg.histCap⟩
        ret := .dibit ret }
    let four : Dibit := if above then (if outer then 1 else 0) else (if outer then 3 else 2)
    (code = -1 → exec .uopDbtNext s = .refused .notLocked) ∧
    (code < -1 ∨ 19 < code → exec .uopDbtNext s = .refused .reservedSynctype) ∧
    (code ∈ ([6, 14, 18] : List Int) →
      exec .uopDbtNext s = .next (if above then pushed 1 0 else pushed 3 1)) ∧
    (code ∈ ([7, 15, 19] : List Int) →
      exec .uopDbtNext s = .next (if above then pushed 1 1 else pushed 3 0)) ∧
    (code ∈ ([1, 3, 5, 9, 11, 13] : List Int) →
      exec .uopDbtNext s = .next (pushed four
        (if above then (if outer then 3 else 2) else (if outer then 1 else 0)))) ∧
    (code ∈ ([0, 2, 4, 8, 10, 12, 16, 17] : List Int) → exec .uopDbtNext s = .next (pushed four four))

/-- The consequences of R122: raw and returned dibit by code, and that the signal's polarity and the lock's cancel where
the levels are symmetric, no symbol equals a level, and the symbol's negative is a symbol. -/
def Obligations.PolarityOfSignalAndLockCancel : Prop :=
  ∀ (c : CarRegs) (v : Sample),
    (∀ code ∈ ([1, 3, 5, 9, 11, 13] : List Ftype), (slice code c v).ret = (slice code c v).raw ^^^ 2) ∧
    (∀ code ∈ ([0, 2, 4, 8, 10, 12, 16, 17] : List Ftype), (slice code c v).ret = (slice code c v).raw) ∧
    (∀ code ∈ ([6, 7, 14, 15, 18, 19] : List Ftype),
      ((slice code c v).raw = 1 ∨ (slice code c v).raw = 3) ∧
        (slice code c v).ret = ((slice code c v).raw >>> 1) ^^^ (code.extractLsb' 0 1).setWidth 2) ∧
    (c.center = 0 → c.lmid.toInt = -c.umid.toInt → v.toInt ≠ 0 → v.toInt ≠ c.umid.toInt → v.toInt ≠ c.lmid.toInt →
      v.toInt ≠ -32768 →
      ∀ p ∈ ([(12, 11), (10, 13), (6, 7), (18, 19)] : List (Ftype × Ftype)),
        (slice p.2 c (-v)).ret = (slice p.1 c v).ret ∧ (slice p.2 c (-v)).raw = (slice p.1 c v).raw ^^^ 2)

/-- Pushing and looking back (R41, R42, R43): the dibit pushed last is at depth 1, every other is one deeper, a history
nothing was pushed into reads 0, and a depth outside 1..`HIST_CAP` is refused. The canonical form of the entries (`HistOk`) is
the model's own representation (notes/assumptions/17.md). -/
def Obligations.LookBackFindsThePushedDibits : Prop :=
  (∀ (s : State) (d : Dibit), HistOk s →
    HistOk (histPush d s) ∧
      (∀ a, histRead (histPush d s).hist.cells a = if a = s.hist.wp then d else histRead s.hist.cells a) ∧
      histBack (histPush d s) 1 = .ok d ∧
      (∀ n, 1 ≤ n → n + 1 ≤ s.cfg.histCap → histBack (histPush d s) (n + 1) = histBack s n) ∧
      ∀ n, n = 0 ∨ s.cfg.histCap < n → histBack s n = .error .historyRange) ∧
  ∀ (c : Config) (input : List CommandWord) (n : Nat), 1 ≤ n → n ≤ c.histCap →
    histBack (State.resetWith c input) n = .ok 0

/-! ### Descrambler and deinterleaver (spec/43_descrambler_deinterleaver.md) -/

/-- `DSC.XOR660` XORs bit i with entry i of the table, and undoes itself, whatever the table holds (R125, R126, R127). -/
def Obligations.DescrambleTwiceIsTheIdentity : Prop :=
  ∀ (s : State) (x : Block), Ready s → ∃ y : Block,
    exec (.uopDscXor660 x) s = .next { s with ret := .block y } ∧
      (∀ i, i < 660 → y.getLsbD i = (x.getLsbD i ^^ s.cfg.romScr.testBit i)) ∧
      exec (.uopDscXor660 y) s = .next { s with ret := .block x }

/-- `DIL.PERM660` puts input bit i at position `K[i]`, `K` in its closed form, and nothing is lost or doubled: it is a
bijection, its inverse index in closed form, undone by the interleaver (R128, R129, R130). -/
def Obligations.DeinterleaveIsTheStridePermutation : Prop :=
  (∀ i, i < 660 → kIndex i < 660 ∧
    kIndex i = if i < 336 then i / 28 + 24 * (i % 28) else 12 + (i - 336) / 27 + 24 * ((i - 336) % 27)) ∧
  kIndex 660 = 24 ∧
  (∀ k, k < 660 →
    let i := if k % 24 < 12 then 28 * (k % 24) + k / 24 else 336 + 27 * (k % 24 - 12) + k / 24
    i < 660 ∧ kIndex i = k ∧ ∀ j, j < 660 → kIndex j = k → j = i) ∧
  ∀ (s : State) (x : Block), Ready s → ∃ y : Block,
    exec (.uopDilPerm660 x) s = .next { s with ret := .block y } ∧
      (∀ i, i < 660 → y.getLsbD (kIndex i) = x.getLsbD i) ∧ interleave y = x ∧
      exec (.uopDilPerm660 (interleave x)) s = .next { s with ret := .block x }

/-! ### Viterbi decoder (spec/44_viterbi.md) -/

/-- `VIT.DECODE` (R136) answers, writes no register, and its result is what add-compare-select and traceback give, spelt
out here: branch metrics are the distances of the received pair from the pair the code expects (R137), all path metrics start
at 0 (R141) and grow by at most 2 a pair, the lower of the two sums is kept and the second predecessor on a tie (R138), its
decision is remembered (R139), and the traceback starts in state 0 (R140), so the last two bits are 0. The expected pair is
that of the configuration's generators, by default 7 and 5 (R135, notes/assumptions/18.md). -/
def Obligations.DecodedTailIsZero : Prop :=
  ∀ (s : State) (x : Block), Ready s → ∃ y : BitVec 330,
    exec (.uopVitDecode x) s = .next { s with ret := .decoded y } ∧ y.getLsbD 328 = false ∧ y.getLsbD 329 = false ∧
    ∃ (pm : Nat → Nat → Nat) (pmem : Nat → Nat → Bool) (path : Nat → Nat),
      (∀ q, q < 4 → pm 0 q = 0) ∧
      (∀ t q, t < 330 → q < 4 →
        let u := q.testBit 0
        let expected : BitVec 3 → Nat → Bool := fun g p =>
          (g.getLsbD 2 && u) ^^ (g.getLsbD 1 && p.testBit 0) ^^ (g.getLsbD 0 && p.testBit 1)
        let bm : Nat → Nat := fun p =>
          (x.getLsbD (2 * t) ^^ expected s.cfg.convCode.g1 p).toNat +
            (x.getLsbD (2 * t + 1) ^^ expected s.cfg.convCode.g2 p).toNat
        let m0 := pm t (q / 2) + bm (q / 2)
        let m1 := pm t (2 + q / 2) + bm (2 + q / 2)
        pm (t + 1) q = (if m0 < m1 then m0 else m1) ∧ pmem q t = !decide (m0 < m1)) ∧
      (∀ t q, t ≤ 330 → q < 4 → pm t q ≤ 2 * t) ∧
      path 330 = 0 ∧
      ∀ t, t < 330 →
        path t = (if pmem (path (t + 1)) t = true then 2 + path (t + 1) / 2 else path (t + 1) / 2) ∧
          y.getLsbD t = (path (t + 1)).testBit 0

/-- With the default generators 7 and 5 (R135) the decoder is exact on what the matching encoder sends, and still with any
one channel bit inverted, for every message whose last two bits are 0; not without them, by the rule's own example (R142,
R143). -/
def Obligations.ViterbiCorrectsASingleError : Prop :=
  let c : ConvCode := ⟨7, 5⟩
  (convEncode c [true, false, true, true] = [(true, true), (true, false), (false, false), (false, true)] ∧
    viterbi c (convEncode c [true, false, true, true]) = [false, false, false, false]) ∧
  ∀ m : List Bool,
    viterbi c (convEncode c (m ++ [false, false])) = m ++ [false, false] ∧
    ∀ j, j < 2 * (m.length + 2) →
      viterbi c (flipChannelBit (convEncode c (m ++ [false, false])) j) = m ++ [false, false]

/-! ### DMR (spec/45_dmr_slot.md) -/

/-- The slot rows that store nothing or one CACH dibit (R154, R155, R156, R169, R170). Which bit of which CACH dibit is the
slot number is a parameter of `CFG`, decided as R155 gives it: bit 1 of dibit 2. -/
def Obligations.CachAndFillerSlots : Prop :=
  decided.cachSlotDibit = 2 ∧ decided.cachSlotBit = 1 ∧
  ∀ (s : State) (d : Dibit) (k : BitVec 6), Ready s →
    exec (.dmrvSlot0 d k) s = .next s ∧ exec (.dmrvSlot8 d k) s = .next s ∧
    (k.toNat < 12 →
      exec (.dmrvSlot1 d k) s = .next { s with
        dmr.cach := s.dmr.cach.setIfInBounds k.toNat d
        dmr.currentslot := if k.toNat = s.cfg.cachSlotDibit then d.getLsbD s.cfg.cachSlotBit else s.dmr.currentslot } ∧
      exec (.dmrvSlot7 d k) s = .next { s with dmr.cach2 := s.dmr.cach2.setIfInBounds k.toNat d }) ∧
    exec (.dmrvSlot10 d k) s = .next s ∧ exec (.dmrvTail d k) s = .next s

/-- `scatter` writes the dibit's two bits at the two places its tables give and leaves the other 94 (R157); the tables hold
R48's contents by default, and in every legal configuration their 72 places are inside the frame and distinct (R48). -/
def Obligations.ScatterWritesItsTwoBits : Prop :=
  (decided.romRw = [0, 1, 0, 1, 0, 1, 0, 1, 0, 1, 0, 1, 0, 1, 0, 1, 0, 1, 0, 1, 0, 1, 0, 2, 0, 2, 0, 2, 0, 2, 0, 2, 0, 2, 0, 2] ∧
    decided.romRx = [23, 10, 22, 9, 21, 8, 20, 7, 19, 6, 18, 5, 17, 4, 16, 3, 15, 2, 14, 1, 13, 0, 12, 10, 11, 9, 10, 8, 9, 7,
      8, 6, 7, 5, 6, 4] ∧
    decided.romRy = [0, 2, 0, 2, 0, 2, 0, 2, 0, 3, 0, 3, 1, 3, 1, 3, 1, 3, 1, 3, 1, 3, 1, 3, 1, 3, 1, 3, 1, 3, 1, 3, 1, 3, 1, 3] ∧
    decided.romRz = [5, 3, 4, 2, 3, 1, 2, 0, 1, 13, 0, 12, 22, 11, 21, 10, 20, 9, 19, 8, 18, 7, 17, 6, 16, 5, 15, 4, 14, 3,
      13, 2, 12, 1, 11, 0]) ∧
  ∀ (c : Config) (fr : Frame) (i : Nat) (d : Dibit), configLegal c = true → i < 36 →
    let hi : Nat → Nat := fun n => 24 * c.romRw[n]! + c.romRx[n]!
    let lo : Nat → Nat := fun n => 24 * c.romRy[n]! + c.romRz[n]!
    (c.romRw[i]! < 4 ∧ c.romRx[i]! < 24 ∧ c.romRy[i]! < 4 ∧ c.romRz[i]! < 24) ∧
      (∀ n, n < 36 → hi i ≠ lo n ∧ (n ≠ i → hi i ≠ hi n ∧ lo i ≠ lo n)) ∧
      (scatter c fr i d).getLsbD (hi i) = d.getLsbD 1 ∧ (scatter c fr i d).getLsbD (lo i) = d.getLsbD 0 ∧
      ∀ n, n ≠ hi i → n ≠ lo i → (scatter c fr i d).getLsbD n = fr.getLsbD n

/-- The slot rows that scatter AMBE bits and hand off complete frames unless the slot is muted (R158, R159, R161, R162). What
`DMRV.SLOT3` scatters for an offset beyond its 18 symbols is the model's free value, no rule of the spec
(notes/assumptions/23.md). -/
def Obligations.AmbeSlotsScatterAndHandOff : Prop :=
  ∀ (s : State) (d : Dibit) (k : BitVec 6), Ready s → ftypeOk s.car.synctype →
    (k.toNat < 36 →
      exec (.dmrvSlot2 d k) s = .next { s with
        dmr.fr1 := scatter s.cfg (if k.toNat = 0 then 0 else s.dmr.fr1) k.toNat d }) ∧
    (k.toNat < 18 →
      exec (.dmrvSlot3 d k) s = .next { s with
        dmr.fr2 := scatter s.cfg (if k.toNat = 0 then 0 else s.dmr.fr2) k.toNat d } ∧
      (let fr2 := scatter s.cfg s.dmr.fr2 (18 + k.toNat) d
       exec (.dmrvSlot5 d k) s = .next { s with
        dmr.fr2 := fr2
        events := s.events ++ if k.toNat = 17 ∧ s.dmr.mute = false
          then [.voiceFrame s.car.synctype s.dmr.fr1, .voiceFrame s.car.synctype fr2] else [] })) ∧
    (18 ≤ k.toNat → k.toNat < 36 →
      exec (.dmrvSlot3 d k) s = .next { s with
        dmr.fr2 := scatter s.cfg s.dmr.fr2 k.toNat (Config.pairPastSlot d k.toNat s.dmr.fr2) }) ∧
    (k.toNat < 36 →
      let fr3 := scatter s.cfg (if k.toNat = 0 then 0 else s.dmr.fr3) k.toNat d
      exec (.dmrvSlot6 d k) s = .next { s with
        dmr.fr3 := fr3
        events := s.events ++ if k.toNat = 35 ∧ s.dmr.mute = false then [.voiceFrame s.car.synctype fr3] else [] })

/-- The sync-field rows and `sync_eval` (R160, R164, R165): the field's characters, the verdict when it is complete, and
that a field equal to none of the constants writes nothing. -/
def Obligations.SyncFieldDecidesMuteLightAndMode : Prop :=
  ∀ (s : State) (d : Dibit) (k : BitVec 6), Ready s → k.toNat < 24 →
    exec (.dmrvSlot9 d k) s = .next { s with dmr.sync2 := s.dmr.sync2.setIfInBounds k.toNat (d ||| 1) } ∧
    (let u : State := { s with dmr.syncf := s.dmr.syncf.setIfInBounds k.toNat (d ||| 1) }
     let f := u.dmr.syncf.toList
     let data : Bool := decide (f = s.cfg.bsData ∨ f = s.cfg.msData)
     let voice : Bool := decide (f = s.cfg.bsVoice ∨ f = s.cfg.msVoice)
     (k.toNat ≠ 23 → exec (.dmrvSlot4 d k) s = .next u) ∧
     (k.toNat = 23 → exec (.dmrvSlot4 d k) s = .next { u with
        dmr.mute := if data then true else if voice then false else s.dmr.mute
        dmr.slotlight :=
          if data then s.dmr.slotlight.setIfInBounds s.dmr.currentslot.toNat 1
          else if voice then s.dmr.slotlight.setIfInBounds s.dmr.currentslot.toNat 2
          else s.dmr.slotlight
        dmr.msMode :=
          if f = s.cfg.msData ∨ f = s.cfg.msVoice then true
          else if f = s.cfg.bsData ∨ f = s.cfg.bsVoice then false
          else s.dmr.msMode }))

/-- `DMRV.ENTER()` (R152): the 90 dibits before the lock replayed into the CACH, frame 1, half of frame 2 and the sync
field, which is evaluated; the history is only read. With no
block to decode, every position is one of the tail. -/
def Obligations.VoiceEntryReplaysTheHistory : Prop :=
  ∀ s : State, Ready s → ftypeOk s.car.synctype →
    let h : Nat → Dibit := fun n => lookBack s n ^^^ (if s.car.synctype = 11 then 2 else 0)
    let u := syncEval { s with
      fsm := 1
      dmr.cach := tabulate 12 fun k => h (90 - k)
      dmr.currentslot := (h (90 - s.cfg.cachSlotDibit)).getLsbD s.cfg.cachSlotBit
      dmr.fr1 := (List.range 36).foldl (fun f k => scatter s.cfg f k (h (78 - k))) 0
      dmr.fr2 := (List.range 18).foldl (fun f k => scatter s.cfg f k (h (42 - k))) 0
      dmr.syncf := tabulate 24 fun k => h (24 - k) ||| 1 }
    (0 < s.cfg.dmrVoiceBlocks → exec .uopDmrvEnter s = .next { u with dmr.symbolIndex := 144 }) ∧
    (s.cfg.dmrVoiceBlocks = 0 → exec .uopDmrvEnter s = .next { s with fsm := 1, dmr.symbolIndex := 144 })

/-- `DMRV.STEP()` (R153, R163): one dibit from `DBT.NEXT`, given to the slot row of the position, the position advanced,
the search restarted at `DMR_VOICE_END`. A position past its width is the model's free value, no rule of the spec
(notes/assumptions/14.md). -/
def Obligations.VoiceStepRunsTheSlotOfItsPosition : Prop :=
  ∀ s : State, Ready s → 0 ≤ s.car.synctype.toInt → s.car.synctype.toInt ≤ 19 →
    let idx := s.dmr.symbolIndex.toNat
    let sub := if s.cfg.dmrVoiceBlocks ≤ idx / 288 then 11 else slotIndex (idx % 288)
    ∃ d u w, exec .uopDbtNext s = .next { u with ret := .dibit d } ∧ u.ret = s.ret ∧
      exec (slotRow sub d (BitVec.ofNat 6 (slotOffsetOf (idx % 288)))) u = .next w ∧
      exec .uopDmrvStep s =
        (let m : State := { w with dmr.symbolIndex := countUp .symbolIndex s.dmr.symbolIndex }
         .next (if s.cfg.dmrVoiceEnd ≤ (countUp .symbolIndex s.dmr.symbolIndex).toNat then toSearch m else m))

/-- `DMRD.ENTER()` (R166): the fields read from the history, the sync field evaluated, the event. -/
def Obligations.DataEntryReadsTheFields : Prop :=
  ∀ s : State, Ready s → ftypeOk s.car.synctype →
    let h : Nat → Dibit := fun n => lookBack s n ^^^ (if s.car.synctype = 13 then 2 else 0)
    let u := syncEval { s with
      fsm := 2
      dmr.cach := tabulate 12 fun k => h (90 - k)
      dmr.currentslot := (h (90 - s.cfg.cachSlotDibit)).getLsbD s.cfg.cachSlotBit
      dmr.slottype := h 29 ++ h 28
      dmr.bursttype := h 27 ++ h 26
      dmr.syncf := tabulate 24 fun k => h (24 - k) ||| 1 }
    exec .uopDmrdEnter s = .next { u with
      dmr.dcount := 0
      events := s.events ++ [.dmrData ((h (90 - s.cfg.cachSlotDibit)).getLsbD s.cfg.cachSlotBit) (h 29 ++ h 28) (h 27 ++ h 26)] }

/-- `DMRD.STEP()`, as the row of the dispatch word and as the unit operation (R168): the dibit recorded and not used, the
search restarted after `DMR_DATA_SPAN` symbols. A count past its width is the model's free value, no rule of the spec
(notes/assumptions/14.md). -/
def Obligations.DataStepCountsItsSpan : Prop :=
  ∀ s : State, Ready s → 0 ≤ s.car.synctype.toInt → s.car.synctype.toInt ≤ 19 →
    let raw := (slice s.car.synctype s.car s.str.symbol).raw
    let u : State := { s with
      hist := ⟨histWrite s.hist.cells s.hist.wp raw, (s.hist.wp + 1) % s.cfg.histCap⟩
      dmr.dcount := countUp .dcount s.dmr.dcount }
    let t := if s.cfg.dmrDataSpan ≤ (countUp .dcount s.dmr.dcount).toNat then toSearch u else u
    exec .dmrdStep s = .next t ∧ exec .uopDmrdStep s = .next t

/-! ### D-STAR (spec/46_dstar_slot.md) -/

/-- `DST.ENTER()` and `DSTH.ENTER()` (R175, R188). -/
def Obligations.DStarEntriesClearTheirRegisters : Prop :=
  ∀ s : State, Ready s →
    exec .uopDstEnter s = .next { s with
      fsm := 3
      dst.dstPos := 0, dst.bitbuf := 0, dst.miss := 0, dst.dphase := 0, dst.dfirst := true, dst.dfr := 0 } ∧
    exec .uopDsthEnter s = .next { s with fsm := 4, hdr.hdCnt := 0 }

/-- `DSTV.BIT()`, as the row of the dispatch word and as the unit operation (R177 to R180): the bit into the rolling
buffer, then the bit-slip or the scatter, and the hand-off of the complete frame. -/
def Obligations.VoiceBitScattersOrSlips : Prop :=
  ∀ s : State, Ready s → 0 ≤ s.car.synctype.toInt → s.car.synctype.toInt ≤ 19 → s.dst.dstPos.toNat < 72 →
    let c := slice s.car.synctype s.car s.str.symbol
    let b := c.ret.getLsbD 0
    let pos := s.dst.dstPos.toNat
    let buf : BitVec 24 := (s.dst.bitbuf <<< 1) ||| (BitVec.ofBool b).setWidth 24
    let u : State := { s with
      hist := ⟨histWrite s.hist.cells s.hist.wp c.raw, (s.hist.wp + 1) % s.cfg.histCap⟩
      dst.bitbuf := buf }
    let fr := frameSet (if pos = 0 then 0 else s.dst.dfr) s.cfg.romDw[pos]! s.cfg.romDx[pos]! b
    let t : State :=
      if buf = s.cfg.dstarSync24 then
        { u with dst.dstPos := 0, dst.dfr := 0, events := s.events ++ [.bitSlip s.dst.dstPos] }
      else
        { u with
          dst.dfr := fr, dst.dstPos := s.dst.dstPos + 1
          events := s.events ++ if pos = 71 then [.voiceFrame s.car.synctype fr] else [] }
    exec .dstvBit s = .next t ∧ exec .uopDstvBit s = .next t

/-- `DSTD.BIT()`, as the row of the dispatch word and as the unit operation (R177, R181, R183): the bit into the rolling
buffer and the slow-data bytes, and the evaluation at the segment's end. A position past its width is the model's free value,
no rule of the spec (notes/assumptions/14.md). -/
def Obligations.DataBitFillsTheSlowBytes : Prop :=
  ∀ s : State, Ready s → 0 ≤ s.car.synctype.toInt → s.car.synctype.toInt ≤ 19 → 72 ≤ s.dst.dstPos.toNat →
    let c := slice s.car.synctype s.car s.str.symbol
    let b := c.ret.getLsbD 0
    let k := s.dst.dstPos.toNat - 72
    let start : Vector Byte 3 := if k = 0 then #v[0, 0, 0] else s.dst.slow
    ∃ slow : Vector Byte 3,
      (∀ (j : Nat) (h : j < 3), slow[j] =
        if k < 24 ∧ j = k / 8 then start[j] ||| ((BitVec.ofBool b).setWidth 8 <<< (k % 8)) else start[j]) ∧
      (let u : State := { s with
        hist := ⟨histWrite s.hist.cells s.hist.wp c.raw, (s.hist.wp + 1) % s.cfg.histCap⟩
        dst.bitbuf := (s.dst.bitbuf <<< 1) ||| (BitVec.ofBool b).setWidth 24
        dst.slow := slow
        dst.dstPos := countUp .dstPos s.dst.dstPos }
       let t := if u.dst.dstPos.toNat = 72 + s.cfg.dstarDataSyms then evaluate u else u
       exec .dstdBit s = .next t ∧ exec .uopDstdBit s = .next t)

/-- `evaluate()` at the end of a data segment (R184 to R187): the sync clears the misses, the end of transmission restarts
the search, anything else is reported and may charge a miss, and the miss limit restarts the search. A phase or a miss count
past its width is the model's free value, no rule of the spec (notes/assumptions/14.md). -/
def Obligations.SegmentEvaluationFollowsItsRules : Prop :=
  ∀ s : State,
    let phase : BitVec 8 := fitU 8 .dphase ((s.dst.dphase.toNat + 1) % s.cfg.dstarSyncPeriod)
    let u : State := { s with dst.dfirst := false, dst.dphase := phase }
    let finish : State → State := fun m =>
      if s.cfg.dstarMissLimit ≤ m.dst.miss.toNat then toSearch m else { m with dst.dstPos := 0 }
    (s.dst.bitbuf = s.cfg.dstarSync24 → evaluate s = finish { u with dst.miss := 0 }) ∧
    (s.dst.bitbuf ≠ s.cfg.dstarSync24 → s.dst.bitbuf = s.cfg.dstarEot24 →
      evaluate s = toSearch { u with events := s.events ++ [.endOfTx] }) ∧
    (s.dst.bitbuf ≠ s.cfg.dstarSync24 → s.dst.bitbuf ≠ s.cfg.dstarEot24 →
      let b0 := if s.dst.dfirst then s.dst.slow[0] else s.dst.slow[0] ^^^ s.cfg.dstarMask0
      let b1 := if s.dst.dfirst then s.dst.slow[1] else s.dst.slow[1] ^^^ s.cfg.dstarMask1
      let b2 := if s.dst.dfirst then s.dst.slow[2] else s.dst.slow[2] ^^^ s.cfg.dstarMask2
      evaluate s = finish { u with
        dst.miss := if phase = 0 then countUp .miss s.dst.miss else s.dst.miss
        dst.slow := #v[b0, b1, b2]
        events := s.events ++ [.slowData b0 b1 b2 (!s.dst.dfirst)] })

/-- `DSTH.BIT()`, as the row of the dispatch word and as the unit operation, and `DSTH.DECODE()` (R189, R190, R192): the
symbol recorded, and at the 660th the header decoded, reported, and the search restarted. A count past its width is the
model's free value, no rule of the spec (notes/assumptions/14.md). -/
def Obligations.HeaderBitDecodesAtTheLast : Prop :=
  ∀ s : State, Ready s → ftypeOk s.car.synctype →
    (let bits : Block := ofBits (fun i => decide (lookBack s (660 - i) = 3) ^^ decide (s.car.synctype = 19)) 660
     let header := packHeader (vitDecode s.cfg.convCode (deinterleave (descramble s.cfg.romScr bits)))
     exec .uopDsthDecode s = .next { s with hdr.header := header, events := s.events ++ [.dstarHeader header] }) ∧
    (0 ≤ s.car.synctype.toInt →
      let raw := (slice s.car.synctype s.car s.str.symbol).raw
      let u : State := { s with
        hist := ⟨histWrite s.hist.cells s.hist.wp raw, (s.hist.wp + 1) % s.cfg.histCap⟩
        hdr.hdCnt := countUp .hdCnt s.hdr.hdCnt }
      ∃ t, exec .dsthBit s = .next t ∧ exec .uopDsthBit s = .next t ∧
        ((countUp .hdCnt s.hdr.hdCnt).toNat ≠ 660 → t = u) ∧
        ((countUp .hdCnt s.hdr.hdCnt).toNat = 660 → ∃ m, exec .uopDsthDecode u = .next m ∧ t = toSearch m))

/-- A header sent by the rules is received: if the last 660 dibits of the history are the transmitted block of a 41-byte
header, inverted for code 19, with at most one bit wrong, `DSTH.DECODE` delivers that header (R190, R191, R192), under the
default generators (R135). -/
def Obligations.TransmittedHeaderIsReceived : Prop :=
  ∀ (s : State) (h : Vector Byte 41) (x : Block), Ready s → s.cfg.convCode = ⟨7, 5⟩ →
    (s.car.synctype = 18 ∨ s.car.synctype = 19) →
    (x = transmitBlock s.cfg h ∨ ∃ j, j < 660 ∧ x = transmitBlock s.cfg h ^^^ BitVec.twoPow 660 j) →
    (∀ i, i < 660 → decide (lookBack s (660 - i) = 3) = (x.getLsbD i ^^ decide (s.car.synctype = 19))) →
    exec .uopDsthDecode s = .next { s with hdr.header := h, events := s.events ++ [.dstarHeader h] }

/-! ### The code rows (notes/assumptions/5.md to 10.md) and the conditions (spec/60_exceptions.md) -/

/-- The FTYPE rows without a decoder in scope, and `FTYPE.NONE`, as the reaction to that result of `FS.STEP` (R203, R205;
that running the row performs the reaction is notes/assumptions/5.md). -/
def Obligations.ForeignFrameTypesReturnToSearch : Prop :=
  ∀ s : State, Ready s →
    exec .ftypeNone s = .next (toSearch { s with events := s.events ++ [.noSync] }) ∧
    ∀ i code, (i, code) ∈ ftypeCodes → code ∉ ([6, 7, 10, 11, 12, 13, 18, 19] : List Ftype) →
      exec i s = .next (toSearch { s with
        car.synctype := code, car.lastsynctype := code, car.carrier := true, events := s.events ++ [.sync code] })

/-- The FTYPE rows of DMR and D-STAR, as the lock on that code: the lock recorded and reported, and the entry of the
protocol state performed (R203, R204; that running the row performs the lock is notes/assumptions/5.md). -/
def Obligations.LockingFrameTypesEnterTheirProtocol : Prop :=
  ∀ s : State, Ready s → ∀ i code, (i, code) ∈ ftypeCodes →
    let u : State := { s with
      car.synctype := code, car.lastsynctype := code, car.carrier := true, events := s.events ++ [.sync code] }
    ((code = 11 ∨ code = 12) → ∃ t, exec i s = .next t ∧ exec .uopDmrvEnter u = .next t ∧ t.fsm = 1) ∧
    ((code = 10 ∨ code = 13) → ∃ t, exec i s = .next t ∧ exec .uopDmrdEnter u = .next t ∧ t.fsm = 2) ∧
    ((code = 6 ∨ code = 7) → ∃ t, exec i s = .next t ∧ exec .uopDstEnter u = .next t ∧ t.fsm = 3) ∧
    ((code = 18 ∨ code = 19) → ∃ t, exec i s = .next t ∧ exec .uopDsthEnter u = .next t ∧ t.fsm = 4)

/-- The RFMOD rows, as the write of the hypothesis (R63, R98; that running the row performs it is
notes/assumptions/6.md). -/
def Obligations.ModulationRowsWriteTheHypothesis : Prop :=
  ∀ s : State, Ready s →
    exec .rfmodC4fm s =
      .next { s with car.rfMod := if s.cfg.modC4fm = true then 0 else s.car.rfMod, str.numflips := 0 } ∧
    exec .rfmodQpsk s =
      .next { s with car.rfMod := if s.cfg.modQpsk = true then 1 else s.car.rfMod, str.numflips := 0 } ∧
    exec .rfmodGfsk s =
      .next { s with car.rfMod := if s.cfg.modGfsk = true then 2 else s.car.rfMod, str.numflips := 0 }

/-- The WENT, SLOTLIGHT, DIBIT and BURSTTYPE rows, each as the write of its code where the rules write it (R99, R206;
R165, R108; R121; R166; that running a row performs that write is notes/assumptions/7.md to 10.md). -/
def Obligations.CodeRowsWriteTheirCode : Prop :=
  ∀ s : State, Ready s →
    (∀ i e, (i, e) ∈ ([(.wentDigit0, 0), (.wentDigit1, 1), (.wentDigit2, 2), (.wentDigit3, 3)] : List (Instr × Went)) →
      exec i s = .next { s with
        fs.window := shiftIn s.fs.window e
        fs.t := if s.fs.t.toNat < 2047 then s.fs.t + 1 else s.fs.t }) ∧
    exec .wentE s = .next { s with fs.window := Vector.replicate 32 4 } ∧
    exec .slotlightIdle s = .next { s with dmr.slotlight := #v[0, 0] } ∧
    exec .slotlightData s =
      .next { s with dmr.slotlight := s.dmr.slotlight.setIfInBounds s.dmr.currentslot.toNat 1 } ∧
    exec .slotlightVoice s =
      .next { s with dmr.slotlight := s.dmr.slotlight.setIfInBounds s.dmr.currentslot.toNat 2 } ∧
    (∀ i d, (i, d) ∈ ([(.dibitRawAboveUmid, 1), (.dibitRawCenterToUmid, 0), (.dibitRawLmidToCenter, 2),
        (.dibitRawBelowLmid, 3)] : List (Instr × Dibit)) →
      exec i s = .next { s with
        hist := ⟨histWrite s.hist.cells s.hist.wp d, (s.hist.wp + 1) % s.cfg.histCap⟩ }) ∧
    ∀ i b, (i, b) ∈ ([(.burstPiHeader, 0), (.burstVoiceLcHeader, 1), (.burstTerminatorLc, 2), (.burstCsbk, 3),
        (.burstMbcHeader, 4), (.burstMbcCont, 5), (.burstDataHeader, 6), (.burstRate12Data, 7), (.burstRate34Data, 8),
        (.burstIdle, 9), (.burstRate1Data, 10)] : List (Instr × BitVec 4)) →
      exec i s = .next { s with dmr.bursttype := b }

/-- Taking a condition (R215): the CONDITION rows perform the writes and give the event of R217 to R222, in the current
step, saving nothing; that a row can be run by itself is notes/assumptions/11.md, a count past its width is the model's free value
(notes/assumptions/14.md). -/
def Obligations.ConditionsPerformTheirWrites : Prop :=
  ∀ s : State, Ready s →
    (let u := searchIntake s.str.symbol s
     let e : State :=
      if 0 ≤ u.fs.hint.toInt ∧ s.cfg.hintWindow ≤ u.fs.tHint.toNat then { u with fs.hint := -1, fs.tHint := 0 } else u
     exec .condNosync s = .next { e with fs.synctestPos := countUp .synctestPos s.fs.synctestPos }) ∧
    exec .condCarrierloss s = .next (toSearch { noCarrier s with events := s.events ++ [.noSync] }) ∧
    exec .condBitslip s =
      .next { s with dst.dstPos := 0, dst.dfr := 0, events := s.events ++ [.bitSlip s.dst.dstPos] } ∧
    exec .condSyncmissexceeded s = .next (toSearch s) ∧
    exec .condFramedone s = .next (toSearch s) ∧
    exec .condEndoftx s = .next (toSearch { s with events := s.events ++ [.endOfTx] }) ∧
    exec .condForeignsync s = .next (toSearch s) ∧
    exec .condEmptywindow s = .next { s with
      maj.maj := if s.maj.nneg.toNat < s.maj.npos.toNat then 1 else if s.maj.npos.toNat < s.maj.nneg.toNat then -1 else 0
      str.plen := BitVec.ofNat 9 (nudge s.cfg s.car.rfMod s.str.jitter.toInt (decide (s.fsm ≠ 0)))
      str.sidx := 0, str.sum := 0, str.cnt := 0, maj.npos := 0, maj.nneg := 0, str.jitter := -1
      str.symbol := 0 }
end

