-- ==== Sys2Proof/Laws/Bits.lean ====
section
/-! SUPPORT. The entries of the vectors and bit vectors the meanings build: `setBit`, `ofBits`, `tabulate`, `shiftIn`,
`frameSet`. -/

namespace Sys2Proof.Machine

/-- Bit `j` after bit `i` was set to `b`. -/
theorem getLsbD_setBit {n : Nat} (v : BitVec n) (i j : Nat) (b : Bool) :
    (setBit v i b).getLsbD j = if j = i then (decide (i < n) && b) else v.getLsbD j := by
  unfold setBit
  rcases Nat.lt_or_ge j n with hn | hn
  · by_cases hj : j = i
    · subst hj
      cases b <;> simp [hn]
    · cases b
      · simp [hn, hj]
      · simp [hn, hj]
  · rw [BitVec.getLsbD_of_ge _ _ hn, BitVec.getLsbD_of_ge _ _ hn]
    split
    · have : ¬ i < n := by omega
      simp [this]
    · rfl

/-- Bit `i` of a bit vector given by its bits. -/
theorem getLsbD_ofBits (f : Nat → Bool) (n i : Nat) : (ofBits f n).getLsbD i = (decide (i < n) && f i) := by
  induction n with
  | zero => simp [ofBits]
  | succ n ih =>
    rw [ofBits, BitVec.getLsbD_cons, ih]
    by_cases h : i = n
    · subst h; simp
    · have : (i < n + 1) = (i < n) := by simp; omega
      simp [h, this]

/-- Entry `i` of a vector given by its entries. -/
theorem getElem_tabulate {α : Type} (n : Nat) (f : Nat → α) (i : Nat) (h : i < n) : (tabulate n f)[i] = f i := by
  simp [tabulate]

/-- After a shift entry `i` is the old entry `i + 1` (R45). -/
theorem getElem_shiftIn {α : Type} {n : Nat} (v : Vector α (n + 1)) (x : α) (i : Nat) (h : i < n) :
    (shiftIn v x)[i] = v[i + 1] := by
  simp [shiftIn, h]

/-- After a shift the newest entry is the one that entered (R45). -/
theorem getElem_shiftIn_last {α : Type} {n : Nat} (v : Vector α (n + 1)) (x : α) : (shiftIn v x)[n] = x := by
  simp [shiftIn]

/-- What a shifted vector holds was in it before or entered. -/
theorem mem_shiftIn {α : Type} {n : Nat} {v : Vector α (n + 1)} {x y : α} (h : y ∈ (shiftIn v x).toList) :
    y = x ∨ y ∈ v.toList := by
  have h' : y ∈ v.toList.tail ++ [x] := by simpa [shiftIn, Vector.toList] using h
  rcases List.mem_append.mp h' with h' | h'
  · exact .inr (List.mem_of_mem_tail h')
  · exact .inl (by simpa using h')

/-- The bit of a frame a write addresses (R70). -/
theorem frameGet_frameSet_same (fr : Frame) {w x : Nat} (hw : w < 4) (hx : x < 24) (b : Bool) :
    frameGet (frameSet fr w x b) w x = b := by
  have h : 24 * w + x < 96 := by omega
  rw [frameGet, frameSet, getLsbD_setBit, if_pos rfl, decide_eq_true h, Bool.true_and]

/-- The other bits of a frame. -/
theorem frameSet_other (fr : Frame) (w x j : Nat) (b : Bool) (h : j ≠ 24 * w + x) :
    (frameSet fr w x b).getLsbD j = fr.getLsbD j := by
  rw [frameSet, getLsbD_setBit, if_neg h]

/-- Bit `i` of a block given by bits. -/
theorem getLsbD_ofBits_lt (f : Nat → Bool) {n i : Nat} (h : i < n) : (ofBits f n).getLsbD i = f i := by
  rw [getLsbD_ofBits, decide_eq_true h, Bool.true_and]

end Sys2Proof.Machine
end

