-- ==== Sys2Proof/Laws/Memory.lean ====
section
/-! SUPPORT. Lemmas about the dibit history as a memory (spec/20_memory.md R41 to R43): what a read gives after a write,
and that every operation keeps the canonical form and the bound of the indices. -/

namespace Sys2Proof.Machine

/-- A canonical history stays canonical from any lower bound. -/
theorem histWfFrom_mono {lo lo' : Nat} (h : lo' ≤ lo) {cells : List (Nat × Dibit)} (hw : histWfFrom lo cells = true) :
    histWfFrom lo' cells = true := by
  cases cells with
  | nil => rfl
  | cons p rest =>
    obtain ⟨a, d⟩ := p
    simp only [histWfFrom, Bool.and_eq_true, decide_eq_true_eq] at hw ⊢
    exact ⟨⟨Nat.le_trans h hw.1.1, hw.1.2⟩, hw.2⟩

/-- An index below every listed one reads 0. -/
theorem histRead_below {lo a : Nat} {cells : List (Nat × Dibit)} (hw : histWfFrom lo cells = true) (ha : a < lo) :
    histRead cells a = 0 := by
  induction cells generalizing lo with
  | nil => rfl
  | cons p rest ih =>
    obtain ⟨b, e⟩ := p
    simp only [histWfFrom, Bool.and_eq_true, decide_eq_true_eq] at hw
    have hb : a ≠ b := by omega
    simp only [histRead, if_neg hb]
    exact ih hw.2 (by omega)

/-- A write keeps the canonical form. -/
theorem histWfFrom_write {lo a : Nat} {d : Dibit} {cells : List (Nat × Dibit)} (hw : histWfFrom lo cells = true)
    (ha : lo ≤ a) : histWfFrom lo (histWrite cells a d) = true := by
  induction cells generalizing lo with
  | nil =>
    unfold histWrite
    split
    · rfl
    · rename_i hd
      simp only [histWfFrom, Bool.and_eq_true, decide_eq_true_eq]
      exact ⟨⟨ha, hd⟩, trivial⟩
  | cons p rest ih =>
    obtain ⟨b, e⟩ := p
    have hw' := hw
    simp only [histWfFrom, Bool.and_eq_true, decide_eq_true_eq] at hw'
    obtain ⟨⟨hb, he⟩, hr⟩ := hw'
    unfold histWrite
    split
    · split
      · exact hw
      · simp only [histWfFrom, Bool.and_eq_true, decide_eq_true_eq]
        exact ⟨⟨ha, by assumption⟩, ⟨by omega, he⟩, hr⟩
    · split
      · subst b
        split
        · exact histWfFrom_mono (by omega) hr
        · simp only [histWfFrom, Bool.and_eq_true, decide_eq_true_eq]
          exact ⟨⟨hb, by assumption⟩, hr⟩
      · simp only [histWfFrom, Bool.and_eq_true, decide_eq_true_eq]
        exact ⟨⟨hb, he⟩, ih hr (by omega)⟩

/-- A write keeps the history canonical. -/
theorem histWf_write {cells : List (Nat × Dibit)} (hw : histWf cells = true) (a : Nat) (d : Dibit) :
    histWf (histWrite cells a d) = true :=
  histWfFrom_write hw (Nat.zero_le a)

/-- Reading an index after a write to it gives what was written. -/
theorem histRead_write_same {lo a : Nat} {d : Dibit} {cells : List (Nat × Dibit)} (hw : histWfFrom lo cells = true) :
    histRead (histWrite cells a d) a = d := by
  induction cells generalizing lo with
  | nil =>
    unfold histWrite
    split
    · simp [histRead, *]
    · simp [histRead]
  | cons p rest ih =>
    obtain ⟨b, e⟩ := p
    have hw' := hw
    simp only [histWfFrom, Bool.and_eq_true, decide_eq_true_eq] at hw'
    obtain ⟨⟨hb, he⟩, hr⟩ := hw'
    unfold histWrite
    split
    · split
      · rename_i hab hd
        rw [hd, histRead, if_neg (by omega)]
        exact histRead_below hr (by omega)
      · simp [histRead]
    · split
      · subst b
        split
        · rename_i hd
          rw [hd]
          exact histRead_below hr (by omega)
        · simp [histRead]
      · rename_i hne
        rw [histRead, if_neg hne]
        exact ih hr

/-- A write leaves every other index as it was. -/
theorem histRead_write_other {a b : Nat} {d : Dibit} (cells : List (Nat × Dibit)) (h : b ≠ a)
    {lo : Nat} (hw : histWfFrom lo cells = true) : histRead (histWrite cells a d) b = histRead cells b := by
  induction cells generalizing lo with
  | nil =>
    unfold histWrite
    split
    · rfl
    · simp [histRead, h]
  | cons p rest ih =>
    obtain ⟨c, e⟩ := p
    have hw' := hw
    simp only [histWfFrom, Bool.and_eq_true, decide_eq_true_eq] at hw'
    obtain ⟨⟨hc, he⟩, hr⟩ := hw'
    unfold histWrite
    split
    · split
      · rfl
      · rw [histRead, if_neg h]
    · split
      · subst c
        split
        · rw [histRead, if_neg h]
        · rw [histRead, if_neg h, histRead, if_neg h]
      · simp only [histRead]
        rw [ih hr]

/-- A write adds no index but its own. -/
theorem mem_histWrite {a : Nat} {d : Dibit} {cells : List (Nat × Dibit)} {p : Nat × Dibit}
    (hp : p ∈ histWrite cells a d) : p = (a, d) ∨ p ∈ cells := by
  induction cells with
  | nil =>
    unfold histWrite at hp
    split at hp
    · simp at hp
    · simpa using hp
  | cons q rest ih =>
    obtain ⟨b, e⟩ := q
    unfold histWrite at hp
    split at hp
    · split at hp
      · exact .inr hp
      · simpa using hp
    · split at hp
      · split at hp
        · exact .inr (List.mem_cons_of_mem _ hp)
        · rcases List.mem_cons.mp hp with h | h
          · exact .inl h
          · exact .inr (List.mem_cons_of_mem _ h)
      · rcases List.mem_cons.mp hp with h | h
        · exact .inr (h ▸ List.mem_cons_self)
        · rcases ih h with h | h
          · exact .inl h
          · exact .inr (List.mem_cons_of_mem _ h)

/-- The history after reset is canonical. -/
theorem histWf_reset (c : Config) (input : List CommandWord) : histWf (State.resetWith c input).hist.cells = true := rfl

/-- Every entry reads 0 after reset (R41). -/
theorem histRead_reset (c : Config) (input : List CommandWord) (a : Nat) :
    histRead (State.resetWith c input).hist.cells a = 0 := rfl

/-- A push keeps the history canonical, the only operation that writes it (R42). -/
theorem histWf_push {s : State} (hw : histWf s.hist.cells = true) (d : Dibit) :
    histWf (histPush d s).hist.cells = true := histWf_write hw _ _

end Sys2Proof.Machine
end

