-- ==== Sys2Proof/Laws/State.lean ====
section
/-! SUPPORT. One lemma per field per update of the state: the fields an operation does not write are unchanged, and the
values the plain updates write. No later proof needs to unfold a record update. -/

namespace Sys2Proof.Machine

variable (s : State)

/-! What `emit` (R8) leaves unchanged. -/

@[simp] theorem emit_fsm (e : Event) : (emit e s).fsm = s.fsm := rfl
@[simp] theorem emit_str (e : Event) : (emit e s).str = s.str := rfl
@[simp] theorem emit_maj (e : Event) : (emit e s).maj = s.maj := rfl
@[simp] theorem emit_car (e : Event) : (emit e s).car = s.car := rfl
@[simp] theorem emit_fs (e : Event) : (emit e s).fs = s.fs := rfl
@[simp] theorem emit_dmr (e : Event) : (emit e s).dmr = s.dmr := rfl
@[simp] theorem emit_dst (e : Event) : (emit e s).dst = s.dst := rfl
@[simp] theorem emit_hdr (e : Event) : (emit e s).hdr = s.hdr := rfl
@[simp] theorem emit_hist (e : Event) : (emit e s).hist = s.hist := rfl
@[simp] theorem emit_cfg (e : Event) : (emit e s).cfg = s.cfg := rfl
@[simp] theorem emit_cfgReset (e : Event) : (emit e s).cfgReset = s.cfgReset := rfl
@[simp] theorem emit_input (e : Event) : (emit e s).input = s.input := rfl
@[simp] theorem emit_ret (e : Event) : (emit e s).ret = s.ret := rfl

/-! What `hist_push` (R42) leaves unchanged. -/

@[simp] theorem histPush_fsm (d : Dibit) : (histPush d s).fsm = s.fsm := rfl
@[simp] theorem histPush_str (d : Dibit) : (histPush d s).str = s.str := rfl
@[simp] theorem histPush_maj (d : Dibit) : (histPush d s).maj = s.maj := rfl
@[simp] theorem histPush_car (d : Dibit) : (histPush d s).car = s.car := rfl
@[simp] theorem histPush_fs (d : Dibit) : (histPush d s).fs = s.fs := rfl
@[simp] theorem histPush_dmr (d : Dibit) : (histPush d s).dmr = s.dmr := rfl
@[simp] theorem histPush_dst (d : Dibit) : (histPush d s).dst = s.dst := rfl
@[simp] theorem histPush_hdr (d : Dibit) : (histPush d s).hdr = s.hdr := rfl
@[simp] theorem histPush_cfg (d : Dibit) : (histPush d s).cfg = s.cfg := rfl
@[simp] theorem histPush_cfgReset (d : Dibit) : (histPush d s).cfgReset = s.cfgReset := rfl
@[simp] theorem histPush_input (d : Dibit) : (histPush d s).input = s.input := rfl
@[simp] theorem histPush_events (d : Dibit) : (histPush d s).events = s.events := rfl
@[simp] theorem histPush_ret (d : Dibit) : (histPush d s).ret = s.ret := rfl

/-! What `shift_window` (R99) leaves unchanged. -/

@[simp] theorem shiftWindow_fsm (e : Went) : (shiftWindow e s).fsm = s.fsm := rfl
@[simp] theorem shiftWindow_str (e : Went) : (shiftWindow e s).str = s.str := rfl
@[simp] theorem shiftWindow_maj (e : Went) : (shiftWindow e s).maj = s.maj := rfl
@[simp] theorem shiftWindow_car (e : Went) : (shiftWindow e s).car = s.car := rfl
@[simp] theorem shiftWindow_dmr (e : Went) : (shiftWindow e s).dmr = s.dmr := rfl
@[simp] theorem shiftWindow_dst (e : Went) : (shiftWindow e s).dst = s.dst := rfl
@[simp] theorem shiftWindow_hdr (e : Went) : (shiftWindow e s).hdr = s.hdr := rfl
@[simp] theorem shiftWindow_hist (e : Went) : (shiftWindow e s).hist = s.hist := rfl
@[simp] theorem shiftWindow_cfg (e : Went) : (shiftWindow e s).cfg = s.cfg := rfl
@[simp] theorem shiftWindow_cfgReset (e : Went) : (shiftWindow e s).cfgReset = s.cfgReset := rfl
@[simp] theorem shiftWindow_input (e : Went) : (shiftWindow e s).input = s.input := rfl
@[simp] theorem shiftWindow_events (e : Went) : (shiftWindow e s).events = s.events := rfl
@[simp] theorem shiftWindow_ret (e : Went) : (shiftWindow e s).ret = s.ret := rfl

/-! What the write of the hypothesis (R98) leaves unchanged. -/

@[simp] theorem applyHypothesis_fsm (m : BitVec 2) : (applyHypothesis m s).fsm = s.fsm := rfl
@[simp] theorem applyHypothesis_maj (m : BitVec 2) : (applyHypothesis m s).maj = s.maj := rfl
@[simp] theorem applyHypothesis_fs (m : BitVec 2) : (applyHypothesis m s).fs = s.fs := rfl
@[simp] theorem applyHypothesis_dmr (m : BitVec 2) : (applyHypothesis m s).dmr = s.dmr := rfl
@[simp] theorem applyHypothesis_dst (m : BitVec 2) : (applyHypothesis m s).dst = s.dst := rfl
@[simp] theorem applyHypothesis_hdr (m : BitVec 2) : (applyHypothesis m s).hdr = s.hdr := rfl
@[simp] theorem applyHypothesis_hist (m : BitVec 2) : (applyHypothesis m s).hist = s.hist := rfl
@[simp] theorem applyHypothesis_cfg (m : BitVec 2) : (applyHypothesis m s).cfg = s.cfg := rfl
@[simp] theorem applyHypothesis_cfgReset (m : BitVec 2) : (applyHypothesis m s).cfgReset = s.cfgReset := rfl
@[simp] theorem applyHypothesis_input (m : BitVec 2) : (applyHypothesis m s).input = s.input := rfl
@[simp] theorem applyHypothesis_events (m : BitVec 2) : (applyHypothesis m s).events = s.events := rfl
@[simp] theorem applyHypothesis_ret (m : BitVec 2) : (applyHypothesis m s).ret = s.ret := rfl

/-! What `observe` (R96) leaves unchanged. -/

@[simp] theorem observe_fsm (v : Sample) : (observe v s).fsm = s.fsm := rfl
@[simp] theorem observe_str (v : Sample) : (observe v s).str = s.str := rfl
@[simp] theorem observe_maj (v : Sample) : (observe v s).maj = s.maj := rfl
@[simp] theorem observe_car (v : Sample) : (observe v s).car = s.car := rfl
@[simp] theorem observe_dmr (v : Sample) : (observe v s).dmr = s.dmr := rfl
@[simp] theorem observe_dst (v : Sample) : (observe v s).dst = s.dst := rfl
@[simp] theorem observe_hdr (v : Sample) : (observe v s).hdr = s.hdr := rfl
@[simp] theorem observe_cfg (v : Sample) : (observe v s).cfg = s.cfg := rfl
@[simp] theorem observe_cfgReset (v : Sample) : (observe v s).cfgReset = s.cfgReset := rfl
@[simp] theorem observe_input (v : Sample) : (observe v s).input = s.input := rfl
@[simp] theorem observe_events (v : Sample) : (observe v s).events = s.events := rfl
@[simp] theorem observe_ret (v : Sample) : (observe v s).ret = s.ret := rfl

/-! What dropping the hint (R105, R106) leaves unchanged. -/

@[simp] theorem dropHint_fsm : (dropHint s).fsm = s.fsm := rfl
@[simp] theorem dropHint_str : (dropHint s).str = s.str := rfl
@[simp] theorem dropHint_maj : (dropHint s).maj = s.maj := rfl
@[simp] theorem dropHint_car : (dropHint s).car = s.car := rfl
@[simp] theorem dropHint_dmr : (dropHint s).dmr = s.dmr := rfl
@[simp] theorem dropHint_dst : (dropHint s).dst = s.dst := rfl
@[simp] theorem dropHint_hdr : (dropHint s).hdr = s.hdr := rfl
@[simp] theorem dropHint_hist : (dropHint s).hist = s.hist := rfl
@[simp] theorem dropHint_cfg : (dropHint s).cfg = s.cfg := rfl
@[simp] theorem dropHint_cfgReset : (dropHint s).cfgReset = s.cfgReset := rfl
@[simp] theorem dropHint_input : (dropHint s).input = s.input := rfl
@[simp] theorem dropHint_events : (dropHint s).events = s.events := rfl
@[simp] theorem dropHint_ret : (dropHint s).ret = s.ret := rfl

/-! What the count of a symbol without a match (R107) leaves unchanged. -/

@[simp] theorem countMiss_fsm : (countMiss s).fsm = s.fsm := rfl
@[simp] theorem countMiss_str : (countMiss s).str = s.str := rfl
@[simp] theorem countMiss_maj : (countMiss s).maj = s.maj := rfl
@[simp] theorem countMiss_car : (countMiss s).car = s.car := rfl
@[simp] theorem countMiss_dmr : (countMiss s).dmr = s.dmr := rfl
@[simp] theorem countMiss_dst : (countMiss s).dst = s.dst := rfl
@[simp] theorem countMiss_hdr : (countMiss s).hdr = s.hdr := rfl
@[simp] theorem countMiss_hist : (countMiss s).hist = s.hist := rfl
@[simp] theorem countMiss_cfg : (countMiss s).cfg = s.cfg := rfl
@[simp] theorem countMiss_cfgReset : (countMiss s).cfgReset = s.cfgReset := rfl
@[simp] theorem countMiss_input : (countMiss s).input = s.input := rfl
@[simp] theorem countMiss_events : (countMiss s).events = s.events := rfl
@[simp] theorem countMiss_ret : (countMiss s).ret = s.ret := rfl

/-! What `recalibrate` (R103) leaves unchanged. -/

@[simp] theorem recalibrate_fsm : (recalibrate s).fsm = s.fsm := rfl
@[simp] theorem recalibrate_str : (recalibrate s).str = s.str := rfl
@[simp] theorem recalibrate_maj : (recalibrate s).maj = s.maj := rfl
@[simp] theorem recalibrate_fs : (recalibrate s).fs = s.fs := rfl
@[simp] theorem recalibrate_dmr : (recalibrate s).dmr = s.dmr := rfl
@[simp] theorem recalibrate_dst : (recalibrate s).dst = s.dst := rfl
@[simp] theorem recalibrate_hdr : (recalibrate s).hdr = s.hdr := rfl
@[simp] theorem recalibrate_hist : (recalibrate s).hist = s.hist := rfl
@[simp] theorem recalibrate_cfg : (recalibrate s).cfg = s.cfg := rfl
@[simp] theorem recalibrate_cfgReset : (recalibrate s).cfgReset = s.cfgReset := rfl
@[simp] theorem recalibrate_input : (recalibrate s).input = s.input := rfl
@[simp] theorem recalibrate_events : (recalibrate s).events = s.events := rfl
@[simp] theorem recalibrate_ret : (recalibrate s).ret = s.ret := rfl

/-! What `MAJ.VOTE` (R87) leaves unchanged. -/

@[simp] theorem majVote_fsm : (majVote s).fsm = s.fsm := rfl
@[simp] theorem majVote_str : (majVote s).str = s.str := rfl
@[simp] theorem majVote_car : (majVote s).car = s.car := rfl
@[simp] theorem majVote_fs : (majVote s).fs = s.fs := rfl
@[simp] theorem majVote_dmr : (majVote s).dmr = s.dmr := rfl
@[simp] theorem majVote_dst : (majVote s).dst = s.dst := rfl
@[simp] theorem majVote_hdr : (majVote s).hdr = s.hdr := rfl
@[simp] theorem majVote_hist : (majVote s).hist = s.hist := rfl
@[simp] theorem majVote_cfg : (majVote s).cfg = s.cfg := rfl
@[simp] theorem majVote_cfgReset : (majVote s).cfgReset = s.cfgReset := rfl
@[simp] theorem majVote_input : (majVote s).input = s.input := rfl
@[simp] theorem majVote_events : (majVote s).events = s.events := rfl
@[simp] theorem majVote_ret : (majVote s).ret = s.ret := rfl

/-! What `clear` (R88) leaves unchanged. -/

@[simp] theorem clearPeriod_fsm : (clearPeriod s).fsm = s.fsm := rfl
@[simp] theorem clearPeriod_car : (clearPeriod s).car = s.car := rfl
@[simp] theorem clearPeriod_fs : (clearPeriod s).fs = s.fs := rfl
@[simp] theorem clearPeriod_dmr : (clearPeriod s).dmr = s.dmr := rfl
@[simp] theorem clearPeriod_dst : (clearPeriod s).dst = s.dst := rfl
@[simp] theorem clearPeriod_hdr : (clearPeriod s).hdr = s.hdr := rfl
@[simp] theorem clearPeriod_hist : (clearPeriod s).hist = s.hist := rfl
@[simp] theorem clearPeriod_cfg : (clearPeriod s).cfg = s.cfg := rfl
@[simp] theorem clearPeriod_cfgReset : (clearPeriod s).cfgReset = s.cfgReset := rfl
@[simp] theorem clearPeriod_input : (clearPeriod s).input = s.input := rfl
@[simp] theorem clearPeriod_events : (clearPeriod s).events = s.events := rfl
@[simp] theorem clearPeriod_ret : (clearPeriod s).ret = s.ret := rfl

/-! What the boundary writes (R86 to R88) leaves unchanged. -/

@[simp] theorem boundary_fsm (sync : Bool) : (boundary sync s).fsm = s.fsm := rfl
@[simp] theorem boundary_car (sync : Bool) : (boundary sync s).car = s.car := rfl
@[simp] theorem boundary_fs (sync : Bool) : (boundary sync s).fs = s.fs := rfl
@[simp] theorem boundary_dmr (sync : Bool) : (boundary sync s).dmr = s.dmr := rfl
@[simp] theorem boundary_dst (sync : Bool) : (boundary sync s).dst = s.dst := rfl
@[simp] theorem boundary_hdr (sync : Bool) : (boundary sync s).hdr = s.hdr := rfl
@[simp] theorem boundary_hist (sync : Bool) : (boundary sync s).hist = s.hist := rfl
@[simp] theorem boundary_cfg (sync : Bool) : (boundary sync s).cfg = s.cfg := rfl
@[simp] theorem boundary_cfgReset (sync : Bool) : (boundary sync s).cfgReset = s.cfgReset := rfl
@[simp] theorem boundary_input (sync : Bool) : (boundary sync s).input = s.input := rfl
@[simp] theorem boundary_events (sync : Bool) : (boundary sync s).events = s.events := rfl
@[simp] theorem boundary_ret (sync : Bool) : (boundary sync s).ret = s.ret := rfl

/-! What `ORC.TOSEARCH` (R206) leaves unchanged. -/

@[simp] theorem toSearch_maj : (toSearch s).maj = s.maj := rfl
@[simp] theorem toSearch_dmr : (toSearch s).dmr = s.dmr := rfl
@[simp] theorem toSearch_dst : (toSearch s).dst = s.dst := rfl
@[simp] theorem toSearch_hdr : (toSearch s).hdr = s.hdr := rfl
@[simp] theorem toSearch_hist : (toSearch s).hist = s.hist := rfl
@[simp] theorem toSearch_cfg : (toSearch s).cfg = s.cfg := rfl
@[simp] theorem toSearch_cfgReset : (toSearch s).cfgReset = s.cfgReset := rfl
@[simp] theorem toSearch_input : (toSearch s).input = s.input := rfl
@[simp] theorem toSearch_events : (toSearch s).events = s.events := rfl
@[simp] theorem toSearch_ret : (toSearch s).ret = s.ret := rfl

/-! What `FS.NOCARRIER` (R108) leaves unchanged. -/

@[simp] theorem noCarrier_fsm : (noCarrier s).fsm = s.fsm := rfl
@[simp] theorem noCarrier_maj : (noCarrier s).maj = s.maj := rfl
@[simp] theorem noCarrier_dst : (noCarrier s).dst = s.dst := rfl
@[simp] theorem noCarrier_hdr : (noCarrier s).hdr = s.hdr := rfl
@[simp] theorem noCarrier_hist : (noCarrier s).hist = s.hist := rfl
@[simp] theorem noCarrier_cfg : (noCarrier s).cfg = s.cfg := rfl
@[simp] theorem noCarrier_cfgReset : (noCarrier s).cfgReset = s.cfgReset := rfl
@[simp] theorem noCarrier_input : (noCarrier s).input = s.input := rfl
@[simp] theorem noCarrier_events : (noCarrier s).events = s.events := rfl
@[simp] theorem noCarrier_ret : (noCarrier s).ret = s.ret := rfl

/-! What both lights idle (R108) leaves unchanged. -/

@[simp] theorem lightsIdle_fsm : (lightsIdle s).fsm = s.fsm := rfl
@[simp] theorem lightsIdle_str : (lightsIdle s).str = s.str := rfl
@[simp] theorem lightsIdle_maj : (lightsIdle s).maj = s.maj := rfl
@[simp] theorem lightsIdle_car : (lightsIdle s).car = s.car := rfl
@[simp] theorem lightsIdle_fs : (lightsIdle s).fs = s.fs := rfl
@[simp] theorem lightsIdle_dst : (lightsIdle s).dst = s.dst := rfl
@[simp] theorem lightsIdle_hdr : (lightsIdle s).hdr = s.hdr := rfl
@[simp] theorem lightsIdle_hist : (lightsIdle s).hist = s.hist := rfl
@[simp] theorem lightsIdle_cfg : (lightsIdle s).cfg = s.cfg := rfl
@[simp] theorem lightsIdle_cfgReset : (lightsIdle s).cfgReset = s.cfgReset := rfl
@[simp] theorem lightsIdle_input : (lightsIdle s).input = s.input := rfl
@[simp] theorem lightsIdle_events : (lightsIdle s).events = s.events := rfl
@[simp] theorem lightsIdle_ret : (lightsIdle s).ret = s.ret := rfl

/-! What filling the window with `E` (R206) leaves unchanged. -/

@[simp] theorem emptyWindowEntries_fsm : (emptyWindowEntries s).fsm = s.fsm := rfl
@[simp] theorem emptyWindowEntries_str : (emptyWindowEntries s).str = s.str := rfl
@[simp] theorem emptyWindowEntries_maj : (emptyWindowEntries s).maj = s.maj := rfl
@[simp] theorem emptyWindowEntries_car : (emptyWindowEntries s).car = s.car := rfl
@[simp] theorem emptyWindowEntries_dmr : (emptyWindowEntries s).dmr = s.dmr := rfl
@[simp] theorem emptyWindowEntries_dst : (emptyWindowEntries s).dst = s.dst := rfl
@[simp] theorem emptyWindowEntries_hdr : (emptyWindowEntries s).hdr = s.hdr := rfl
@[simp] theorem emptyWindowEntries_hist : (emptyWindowEntries s).hist = s.hist := rfl
@[simp] theorem emptyWindowEntries_cfg : (emptyWindowEntries s).cfg = s.cfg := rfl
@[simp] theorem emptyWindowEntries_cfgReset : (emptyWindowEntries s).cfgReset = s.cfgReset := rfl
@[simp] theorem emptyWindowEntries_input : (emptyWindowEntries s).input = s.input := rfl
@[simp] theorem emptyWindowEntries_events : (emptyWindowEntries s).events = s.events := rfl
@[simp] theorem emptyWindowEntries_ret : (emptyWindowEntries s).ret = s.ret := rfl

/-! What the loss of carrier's event and restart (R218) leaves unchanged. -/

@[simp] theorem reportNoSync_maj : (reportNoSync s).maj = s.maj := rfl
@[simp] theorem reportNoSync_dmr : (reportNoSync s).dmr = s.dmr := rfl
@[simp] theorem reportNoSync_dst : (reportNoSync s).dst = s.dst := rfl
@[simp] theorem reportNoSync_hdr : (reportNoSync s).hdr = s.hdr := rfl
@[simp] theorem reportNoSync_hist : (reportNoSync s).hist = s.hist := rfl
@[simp] theorem reportNoSync_cfg : (reportNoSync s).cfg = s.cfg := rfl
@[simp] theorem reportNoSync_cfgReset : (reportNoSync s).cfgReset = s.cfgReset := rfl
@[simp] theorem reportNoSync_input : (reportNoSync s).input = s.input := rfl
@[simp] theorem reportNoSync_ret : (reportNoSync s).ret = s.ret := rfl

/-! What the light of the current slot (R165) leaves unchanged. -/

@[simp] theorem setLight_fsm (l : BitVec 2) : (setLight l s).fsm = s.fsm := rfl
@[simp] theorem setLight_str (l : BitVec 2) : (setLight l s).str = s.str := rfl
@[simp] theorem setLight_maj (l : BitVec 2) : (setLight l s).maj = s.maj := rfl
@[simp] theorem setLight_car (l : BitVec 2) : (setLight l s).car = s.car := rfl
@[simp] theorem setLight_fs (l : BitVec 2) : (setLight l s).fs = s.fs := rfl
@[simp] theorem setLight_dst (l : BitVec 2) : (setLight l s).dst = s.dst := rfl
@[simp] theorem setLight_hdr (l : BitVec 2) : (setLight l s).hdr = s.hdr := rfl
@[simp] theorem setLight_hist (l : BitVec 2) : (setLight l s).hist = s.hist := rfl
@[simp] theorem setLight_cfg (l : BitVec 2) : (setLight l s).cfg = s.cfg := rfl
@[simp] theorem setLight_cfgReset (l : BitVec 2) : (setLight l s).cfgReset = s.cfgReset := rfl
@[simp] theorem setLight_input (l : BitVec 2) : (setLight l s).input = s.input := rfl
@[simp] theorem setLight_events (l : BitVec 2) : (setLight l s).events = s.events := rfl
@[simp] theorem setLight_ret (l : BitVec 2) : (setLight l s).ret = s.ret := rfl

/-! What the burst type (R166) leaves unchanged. -/

@[simp] theorem setBurst_fsm (b : BitVec 4) : (setBurst b s).fsm = s.fsm := rfl
@[simp] theorem setBurst_str (b : BitVec 4) : (setBurst b s).str = s.str := rfl
@[simp] theorem setBurst_maj (b : BitVec 4) : (setBurst b s).maj = s.maj := rfl
@[simp] theorem setBurst_car (b : BitVec 4) : (setBurst b s).car = s.car := rfl
@[simp] theorem setBurst_fs (b : BitVec 4) : (setBurst b s).fs = s.fs := rfl
@[simp] theorem setBurst_dst (b : BitVec 4) : (setBurst b s).dst = s.dst := rfl
@[simp] theorem setBurst_hdr (b : BitVec 4) : (setBurst b s).hdr = s.hdr := rfl
@[simp] theorem setBurst_hist (b : BitVec 4) : (setBurst b s).hist = s.hist := rfl
@[simp] theorem setBurst_cfg (b : BitVec 4) : (setBurst b s).cfg = s.cfg := rfl
@[simp] theorem setBurst_cfgReset (b : BitVec 4) : (setBurst b s).cfgReset = s.cfgReset := rfl
@[simp] theorem setBurst_input (b : BitVec 4) : (setBurst b s).input = s.input := rfl
@[simp] theorem setBurst_events (b : BitVec 4) : (setBurst b s).events = s.events := rfl
@[simp] theorem setBurst_ret (b : BitVec 4) : (setBurst b s).ret = s.ret := rfl

/-! What `DST.ENTER` (R175) leaves unchanged. -/

@[simp] theorem dstEnter_str : (dstEnter s).str = s.str := rfl
@[simp] theorem dstEnter_maj : (dstEnter s).maj = s.maj := rfl
@[simp] theorem dstEnter_car : (dstEnter s).car = s.car := rfl
@[simp] theorem dstEnter_fs : (dstEnter s).fs = s.fs := rfl
@[simp] theorem dstEnter_dmr : (dstEnter s).dmr = s.dmr := rfl
@[simp] theorem dstEnter_hdr : (dstEnter s).hdr = s.hdr := rfl
@[simp] theorem dstEnter_hist : (dstEnter s).hist = s.hist := rfl
@[simp] theorem dstEnter_cfg : (dstEnter s).cfg = s.cfg := rfl
@[simp] theorem dstEnter_cfgReset : (dstEnter s).cfgReset = s.cfgReset := rfl
@[simp] theorem dstEnter_input : (dstEnter s).input = s.input := rfl
@[simp] theorem dstEnter_events : (dstEnter s).events = s.events := rfl
@[simp] theorem dstEnter_ret : (dstEnter s).ret = s.ret := rfl

/-! What `DSTH.ENTER` (R188) leaves unchanged. -/

@[simp] theorem dsthEnter_str : (dsthEnter s).str = s.str := rfl
@[simp] theorem dsthEnter_maj : (dsthEnter s).maj = s.maj := rfl
@[simp] theorem dsthEnter_car : (dsthEnter s).car = s.car := rfl
@[simp] theorem dsthEnter_fs : (dsthEnter s).fs = s.fs := rfl
@[simp] theorem dsthEnter_dmr : (dsthEnter s).dmr = s.dmr := rfl
@[simp] theorem dsthEnter_dst : (dsthEnter s).dst = s.dst := rfl
@[simp] theorem dsthEnter_hist : (dsthEnter s).hist = s.hist := rfl
@[simp] theorem dsthEnter_cfg : (dsthEnter s).cfg = s.cfg := rfl
@[simp] theorem dsthEnter_cfgReset : (dsthEnter s).cfgReset = s.cfgReset := rfl
@[simp] theorem dsthEnter_input : (dsthEnter s).input = s.input := rfl
@[simp] theorem dsthEnter_events : (dsthEnter s).events = s.events := rfl
@[simp] theorem dsthEnter_ret : (dsthEnter s).ret = s.ret := rfl

/-! What `track` (R82) leaves unchanged. -/

@[simp] theorem track_fsm (sync : Bool) (v : Sample) : (track sync v s).fsm = s.fsm := rfl
@[simp] theorem track_maj (sync : Bool) (v : Sample) : (track sync v s).maj = s.maj := rfl
@[simp] theorem track_car (sync : Bool) (v : Sample) : (track sync v s).car = s.car := rfl
@[simp] theorem track_fs (sync : Bool) (v : Sample) : (track sync v s).fs = s.fs := rfl
@[simp] theorem track_dmr (sync : Bool) (v : Sample) : (track sync v s).dmr = s.dmr := rfl
@[simp] theorem track_dst (sync : Bool) (v : Sample) : (track sync v s).dst = s.dst := rfl
@[simp] theorem track_hdr (sync : Bool) (v : Sample) : (track sync v s).hdr = s.hdr := rfl
@[simp] theorem track_hist (sync : Bool) (v : Sample) : (track sync v s).hist = s.hist := rfl
@[simp] theorem track_cfg (sync : Bool) (v : Sample) : (track sync v s).cfg = s.cfg := rfl
@[simp] theorem track_cfgReset (sync : Bool) (v : Sample) : (track sync v s).cfgReset = s.cfgReset := rfl
@[simp] theorem track_input (sync : Bool) (v : Sample) : (track sync v s).input = s.input := rfl
@[simp] theorem track_events (sync : Bool) (v : Sample) : (track sync v s).events = s.events := rfl
@[simp] theorem track_ret (sync : Bool) (v : Sample) : (track sync v s).ret = s.ret := rfl

/-! What a step without an operation leaves unchanged. -/

@[simp] theorem idle_fsm : (idle s).fsm = s.fsm := rfl
@[simp] theorem idle_str : (idle s).str = s.str := rfl
@[simp] theorem idle_maj : (idle s).maj = s.maj := rfl
@[simp] theorem idle_car : (idle s).car = s.car := rfl
@[simp] theorem idle_fs : (idle s).fs = s.fs := rfl
@[simp] theorem idle_dmr : (idle s).dmr = s.dmr := rfl
@[simp] theorem idle_dst : (idle s).dst = s.dst := rfl
@[simp] theorem idle_hdr : (idle s).hdr = s.hdr := rfl
@[simp] theorem idle_hist : (idle s).hist = s.hist := rfl
@[simp] theorem idle_cfg : (idle s).cfg = s.cfg := rfl
@[simp] theorem idle_cfgReset : (idle s).cfgReset = s.cfgReset := rfl
@[simp] theorem idle_input : (idle s).input = s.input := rfl

/-! What a word placed for the next step leaves unchanged. -/

@[simp] theorem placeInput_fsm (w : CommandWord) : (placeInput w s).fsm = s.fsm := rfl
@[simp] theorem placeInput_str (w : CommandWord) : (placeInput w s).str = s.str := rfl
@[simp] theorem placeInput_maj (w : CommandWord) : (placeInput w s).maj = s.maj := rfl
@[simp] theorem placeInput_car (w : CommandWord) : (placeInput w s).car = s.car := rfl
@[simp] theorem placeInput_fs (w : CommandWord) : (placeInput w s).fs = s.fs := rfl
@[simp] theorem placeInput_dmr (w : CommandWord) : (placeInput w s).dmr = s.dmr := rfl
@[simp] theorem placeInput_dst (w : CommandWord) : (placeInput w s).dst = s.dst := rfl
@[simp] theorem placeInput_hdr (w : CommandWord) : (placeInput w s).hdr = s.hdr := rfl
@[simp] theorem placeInput_hist (w : CommandWord) : (placeInput w s).hist = s.hist := rfl
@[simp] theorem placeInput_cfg (w : CommandWord) : (placeInput w s).cfg = s.cfg := rfl
@[simp] theorem placeInput_cfgReset (w : CommandWord) : (placeInput w s).cfgReset = s.cfgReset := rfl
@[simp] theorem placeInput_events (w : CommandWord) : (placeInput w s).events = s.events := rfl
@[simp] theorem placeInput_ret (w : CommandWord) : (placeInput w s).ret = s.ret := rfl

/-! What `hypothesis` (R98) leaves unchanged. -/

@[simp] theorem hypothesis_fsm : (hypothesis s).fsm = s.fsm := rfl
@[simp] theorem hypothesis_maj : (hypothesis s).maj = s.maj := rfl
@[simp] theorem hypothesis_fs : (hypothesis s).fs = s.fs := rfl
@[simp] theorem hypothesis_dmr : (hypothesis s).dmr = s.dmr := rfl
@[simp] theorem hypothesis_dst : (hypothesis s).dst = s.dst := rfl
@[simp] theorem hypothesis_hdr : (hypothesis s).hdr = s.hdr := rfl
@[simp] theorem hypothesis_hist : (hypothesis s).hist = s.hist := rfl
@[simp] theorem hypothesis_cfg : (hypothesis s).cfg = s.cfg := rfl
@[simp] theorem hypothesis_cfgReset : (hypothesis s).cfgReset = s.cfgReset := rfl
@[simp] theorem hypothesis_input : (hypothesis s).input = s.input := rfl
@[simp] theorem hypothesis_events : (hypothesis s).events = s.events := rfl
@[simp] theorem hypothesis_ret : (hypothesis s).ret = s.ret := rfl

/-! What `modulation_window` (R97) leaves unchanged. -/

@[simp] theorem modulationWindow_fsm : (modulationWindow s).fsm = s.fsm := by
  unfold modulationWindow; split <;> rfl
@[simp] theorem modulationWindow_maj : (modulationWindow s).maj = s.maj := by
  unfold modulationWindow; split <;> rfl
@[simp] theorem modulationWindow_dmr : (modulationWindow s).dmr = s.dmr := by
  unfold modulationWindow; split <;> rfl
@[simp] theorem modulationWindow_dst : (modulationWindow s).dst = s.dst := by
  unfold modulationWindow; split <;> rfl
@[simp] theorem modulationWindow_hdr : (modulationWindow s).hdr = s.hdr := by
  unfold modulationWindow; split <;> rfl
@[simp] theorem modulationWindow_hist : (modulationWindow s).hist = s.hist := by
  unfold modulationWindow; split <;> rfl
@[simp] theorem modulationWindow_cfg : (modulationWindow s).cfg = s.cfg := by
  unfold modulationWindow; split <;> rfl
@[simp] theorem modulationWindow_cfgReset : (modulationWindow s).cfgReset = s.cfgReset := by
  unfold modulationWindow; split <;> rfl
@[simp] theorem modulationWindow_input : (modulationWindow s).input = s.input := by
  unfold modulationWindow; split <;> rfl
@[simp] theorem modulationWindow_events : (modulationWindow s).events = s.events := by
  unfold modulationWindow; split <;> rfl
@[simp] theorem modulationWindow_ret : (modulationWindow s).ret = s.ret := by
  unfold modulationWindow; split <;> rfl

/-! What hint ageing (R106 (a)) leaves unchanged. -/

@[simp] theorem ageHint_fsm : (ageHint s).fsm = s.fsm := by
  unfold ageHint; split <;> rfl
@[simp] theorem ageHint_str : (ageHint s).str = s.str := by
  unfold ageHint; split <;> rfl
@[simp] theorem ageHint_maj : (ageHint s).maj = s.maj := by
  unfold ageHint; split <;> rfl
@[simp] theorem ageHint_car : (ageHint s).car = s.car := by
  unfold ageHint; split <;> rfl
@[simp] theorem ageHint_dmr : (ageHint s).dmr = s.dmr := by
  unfold ageHint; split <;> rfl
@[simp] theorem ageHint_dst : (ageHint s).dst = s.dst := by
  unfold ageHint; split <;> rfl
@[simp] theorem ageHint_hdr : (ageHint s).hdr = s.hdr := by
  unfold ageHint; split <;> rfl
@[simp] theorem ageHint_hist : (ageHint s).hist = s.hist := by
  unfold ageHint; split <;> rfl
@[simp] theorem ageHint_cfg : (ageHint s).cfg = s.cfg := by
  unfold ageHint; split <;> rfl
@[simp] theorem ageHint_cfgReset : (ageHint s).cfgReset = s.cfgReset := by
  unfold ageHint; split <;> rfl
@[simp] theorem ageHint_input : (ageHint s).input = s.input := by
  unfold ageHint; split <;> rfl
@[simp] theorem ageHint_events : (ageHint s).events = s.events := by
  unfold ageHint; split <;> rfl
@[simp] theorem ageHint_ret : (ageHint s).ret = s.ret := by
  unfold ageHint; split <;> rfl

/-! What hint expiry (R106 (b)) leaves unchanged. -/

@[simp] theorem expireHint_fsm : (expireHint s).fsm = s.fsm := by
  unfold expireHint; split <;> rfl
@[simp] theorem expireHint_str : (expireHint s).str = s.str := by
  unfold expireHint; split <;> rfl
@[simp] theorem expireHint_maj : (expireHint s).maj = s.maj := by
  unfold expireHint; split <;> rfl
@[simp] theorem expireHint_car : (expireHint s).car = s.car := by
  unfold expireHint; split <;> rfl
@[simp] theorem expireHint_dmr : (expireHint s).dmr = s.dmr := by
  unfold expireHint; split <;> rfl
@[simp] theorem expireHint_dst : (expireHint s).dst = s.dst := by
  unfold expireHint; split <;> rfl
@[simp] theorem expireHint_hdr : (expireHint s).hdr = s.hdr := by
  unfold expireHint; split <;> rfl
@[simp] theorem expireHint_hist : (expireHint s).hist = s.hist := by
  unfold expireHint; split <;> rfl
@[simp] theorem expireHint_cfg : (expireHint s).cfg = s.cfg := by
  unfold expireHint; split <;> rfl
@[simp] theorem expireHint_cfgReset : (expireHint s).cfgReset = s.cfgReset := by
  unfold expireHint; split <;> rfl
@[simp] theorem expireHint_input : (expireHint s).input = s.input := by
  unfold expireHint; split <;> rfl
@[simp] theorem expireHint_events : (expireHint s).events = s.events := by
  unfold expireHint; split <;> rfl
@[simp] theorem expireHint_ret : (expireHint s).ret = s.ret := by
  unfold expireHint; split <;> rfl

/-! What `accumulate` (R83) leaves unchanged. -/

@[simp] theorem accumulate_fsm (v : Sample) : (accumulate v s).fsm = s.fsm := by
  simp only [accumulate]; split <;> rfl
@[simp] theorem accumulate_car (v : Sample) : (accumulate v s).car = s.car := by
  simp only [accumulate]; split <;> rfl
@[simp] theorem accumulate_fs (v : Sample) : (accumulate v s).fs = s.fs := by
  simp only [accumulate]; split <;> rfl
@[simp] theorem accumulate_dmr (v : Sample) : (accumulate v s).dmr = s.dmr := by
  simp only [accumulate]; split <;> rfl
@[simp] theorem accumulate_dst (v : Sample) : (accumulate v s).dst = s.dst := by
  simp only [accumulate]; split <;> rfl
@[simp] theorem accumulate_hdr (v : Sample) : (accumulate v s).hdr = s.hdr := by
  simp only [accumulate]; split <;> rfl
@[simp] theorem accumulate_hist (v : Sample) : (accumulate v s).hist = s.hist := by
  simp only [accumulate]; split <;> rfl
@[simp] theorem accumulate_cfg (v : Sample) : (accumulate v s).cfg = s.cfg := by
  simp only [accumulate]; split <;> rfl
@[simp] theorem accumulate_cfgReset (v : Sample) : (accumulate v s).cfgReset = s.cfgReset := by
  simp only [accumulate]; split <;> rfl
@[simp] theorem accumulate_input (v : Sample) : (accumulate v s).input = s.input := by
  simp only [accumulate]; split <;> rfl
@[simp] theorem accumulate_events (v : Sample) : (accumulate v s).events = s.events := by
  simp only [accumulate]; split <;> rfl
@[simp] theorem accumulate_ret (v : Sample) : (accumulate v s).ret = s.ret := by
  simp only [accumulate]; split <;> rfl

/-! What the intake of a search symbol (R95) leaves unchanged. -/

@[simp] theorem searchIntake_fsm (v : Sample) : (searchIntake v s).fsm = s.fsm := by simp [searchIntake]
@[simp] theorem searchIntake_maj (v : Sample) : (searchIntake v s).maj = s.maj := by simp [searchIntake]
@[simp] theorem searchIntake_dmr (v : Sample) : (searchIntake v s).dmr = s.dmr := by simp [searchIntake]
@[simp] theorem searchIntake_dst (v : Sample) : (searchIntake v s).dst = s.dst := by simp [searchIntake]
@[simp] theorem searchIntake_hdr (v : Sample) : (searchIntake v s).hdr = s.hdr := by simp [searchIntake]
@[simp] theorem searchIntake_cfg (v : Sample) : (searchIntake v s).cfg = s.cfg := by simp [searchIntake]
@[simp] theorem searchIntake_cfgReset (v : Sample) : (searchIntake v s).cfgReset = s.cfgReset := by simp [searchIntake]
@[simp] theorem searchIntake_input (v : Sample) : (searchIntake v s).input = s.input := by simp [searchIntake]
@[simp] theorem searchIntake_events (v : Sample) : (searchIntake v s).events = s.events := by simp [searchIntake]
@[simp] theorem searchIntake_ret (v : Sample) : (searchIntake v s).ret = s.ret := by simp [searchIntake]

/-! What the intake of a sample (R80) leaves unchanged. -/

@[simp] theorem strIntake_fsm (v : Sample) (sync : Bool) : (strIntake v sync s).fsm = s.fsm := by simp [strIntake]
@[simp] theorem strIntake_car (v : Sample) (sync : Bool) : (strIntake v sync s).car = s.car := by simp [strIntake]
@[simp] theorem strIntake_fs (v : Sample) (sync : Bool) : (strIntake v sync s).fs = s.fs := by simp [strIntake]
@[simp] theorem strIntake_dmr (v : Sample) (sync : Bool) : (strIntake v sync s).dmr = s.dmr := by simp [strIntake]
@[simp] theorem strIntake_dst (v : Sample) (sync : Bool) : (strIntake v sync s).dst = s.dst := by simp [strIntake]
@[simp] theorem strIntake_hdr (v : Sample) (sync : Bool) : (strIntake v sync s).hdr = s.hdr := by simp [strIntake]
@[simp] theorem strIntake_hist (v : Sample) (sync : Bool) : (strIntake v sync s).hist = s.hist := by simp [strIntake]
@[simp] theorem strIntake_cfg (v : Sample) (sync : Bool) : (strIntake v sync s).cfg = s.cfg := by simp [strIntake]
@[simp] theorem strIntake_cfgReset (v : Sample) (sync : Bool) : (strIntake v sync s).cfgReset = s.cfgReset := by simp [strIntake]
@[simp] theorem strIntake_input (v : Sample) (sync : Bool) : (strIntake v sync s).input = s.input := by simp [strIntake]
@[simp] theorem strIntake_events (v : Sample) (sync : Bool) : (strIntake v sync s).events = s.events := by simp [strIntake]
@[simp] theorem strIntake_ret (v : Sample) (sync : Bool) : (strIntake v sync s).ret = s.ret := by simp [strIntake]

/-! What the plain updates write. -/

@[simp] theorem emit_events (e : Event) : (emit e s).events = s.events ++ [e] := rfl
@[simp] theorem toSearch_fsm : (toSearch s).fsm = lookingForSync := rfl
@[simp] theorem toSearch_car : (toSearch s).car = levels { s.car with synctype := ftypeNone } := rfl
@[simp] theorem reportNoSync_fsm : (reportNoSync s).fsm = lookingForSync := rfl
@[simp] theorem reportNoSync_events : (reportNoSync s).events = s.events ++ [.noSync] := rfl
@[simp] theorem dstEnter_fsm : (dstEnter s).fsm = processingDStar := rfl
@[simp] theorem dsthEnter_fsm : (dsthEnter s).fsm = processingDStarHeader := rfl
@[simp] theorem histPush_hist (d : Dibit) :
    (histPush d s).hist = ⟨histWrite s.hist.cells s.hist.wp d, (s.hist.wp + 1) % s.cfg.histCap⟩ := rfl
@[simp] theorem idle_events : (idle s).events = [] := rfl
@[simp] theorem placeInput_input (w : CommandWord) : (placeInput w s).input = w :: s.input := rfl
@[simp] theorem levels_max (c : CarRegs) : (levels c).max = c.max := rfl
@[simp] theorem levels_min (c : CarRegs) : (levels c).min = c.min := rfl
@[simp] theorem levels_rfMod (c : CarRegs) : (levels c).rfMod = c.rfMod := rfl
@[simp] theorem levels_carrier (c : CarRegs) : (levels c).carrier = c.carrier := rfl
@[simp] theorem levels_synctype (c : CarRegs) : (levels c).synctype = c.synctype := rfl
@[simp] theorem levels_lastsynctype (c : CarRegs) : (levels c).lastsynctype = c.lastsynctype := rfl

/-- `levels()` depends on `max` and `min` alone, so doing it twice is doing it once (R104). -/
@[simp] theorem levels_levels (c : CarRegs) : levels (levels c) = levels c := rfl

end Sys2Proof.Machine
end

