-- ==== Sys2Proof/Laws/Ops.lean ====
section
/-! SUPPORT. One lemma per shared operation that says once what it can do: the wrapper every meaning goes through, the
dibit extractor, the search, the slot demultiplexer, the D-STAR decoders, the entry of a protocol state, and `ORC.PUSH`. -/

namespace Sys2Proof.Machine

/-! ### The wrapper of every meaning -/

/-- An operation answers a next state exactly where operations run and its own part succeeds. -/
theorem runIn_next_iff {s t : State} {k : Except Refusal State} : runIn s k = .next t ↔ Ready s ∧ k = .ok t := by
  unfold runIn Ready
  cases hg : guardOf s with
  | some r => simp
  | none => cases k <;> simp

/-- Where operations run, an operation that succeeds answers its state. -/
theorem runIn_ok {s : State} (h : Ready s) (t : State) : runIn s (.ok t) = .next t := runIn_next_iff.mpr ⟨h, rfl⟩

/-- Where operations run, an operation that is refused answers its refusal. -/
theorem runIn_error {s : State} (h : Ready s) (r : Refusal) : runIn s (.error r) = .refused r := by
  unfold runIn; rw [show guardOf s = none from h]

/-- Where operations do not run, every operation is refused. -/
theorem runIn_refused {s : State} (h : ¬ Ready s) (k : Except Refusal State) : ∃ r, runIn s k = .refused r := by
  unfold runIn
  cases hg : guardOf s with
  | some r => exact ⟨r, rfl⟩
  | none => exact absurd hg h

/-- No operation ends in a fault (R215, R226). -/
theorem runIn_ne_fault (s : State) (k : Except Refusal State) (f : Fault) : runIn s k ≠ .fault f := nomatch f

/-- What the guard reads: two states that agree in it run, or are refused, alike. -/
theorem guardOf_congr {s t : State} (hc : t.cfg = s.cfg) (hr : t.cfgReset = s.cfgReset) (hf : t.fsm = s.fsm)
    (hm : t.car.rfMod = s.car.rfMod) (hw : t.fs.window = s.fs.window) (hl : t.dmr.slotlight = s.dmr.slotlight)
    (hi : t.fs.lidx = s.fs.lidx) (hp : t.hist.wp = s.hist.wp) : guardOf t = guardOf s := by
  unfold guardOf; rw [hc, hr, hf, hm, hw, hl, hi, hp]

/-- The parts of the guard, in a state operations run in. -/
theorem Ready.parts {s : State} (h : Ready s) :
    configLegal s.cfg = true ∧ s.cfg = s.cfgReset ∧ ¬ 4 < s.fsm.toNat ∧ s.car.rfMod ≠ 3 ∧
      s.fs.window.toList.any (fun e => 4 < e.toNat) = false ∧ s.dmr.slotlight.toList.any (fun e => e = 3) = false ∧
      ¬ (24 ≤ s.fs.lidx.toNat ∨ s.cfg.histCap ≤ s.hist.wp) := by
  unfold Ready guardOf at h
  repeat' split at h
  all_goals first | (simp at h; done) | skip
  exact ⟨by simpa using ‹¬ configLegal s.cfg = false›, by simpa using ‹¬ s.cfg ≠ s.cfgReset›, ‹_›, ‹_›,
    by simpa using ‹¬ s.fs.window.toList.any _ = true›, by simpa using ‹¬ s.dmr.slotlight.toList.any _ = true›, ‹_›⟩

/-- The configuration is legal where operations run. -/
theorem Ready.legal {s : State} (h : Ready s) : configLegal s.cfg = true := h.parts.1

/-- A legal configuration's history is deeper than any look-back (R5, R44). -/
theorem configLegal_histCap {c : Config} (h : configLegal c = true) : 1024 ≤ c.histCap := by
  simp only [configLegal, Bool.and_eq_true, decide_eq_true_eq] at h
  tauto

/-- The constraints of a legal configuration on the symbol period (R5). -/
theorem configLegal_sps {c : Config} (h : configLegal c = true) :
    4 ≤ c.sps ∧ c.sps ≤ 255 ∧ 0 < c.center ∧ c.center + 1 < c.sps := by
  simp only [configLegal, Bool.and_eq_true, decide_eq_true_eq] at h
  tauto

/-- The averaging window of every class is inside the shortest period (R5, R85). -/
theorem configLegal_window {c : Config} (h : configLegal c = true) (rf : BitVec 2) :
    (winOf c rf).lo ≤ (winOf c rf).hi ∧ (winOf c rf).hi + 2 ≤ c.sps := by
  simp only [configLegal, windowLegal, Bool.and_eq_true, decide_eq_true_eq] at h
  unfold winOf
  split
  · tauto
  · split <;> tauto

/-- A legal table has every row an enabled protocol needs, with its pattern supplied and of the row's length (R46). -/
theorem configLegal_pattern {c : Config} (h : configLegal c = true) {n : SyncName} (hn : n ∈ neededRows)
    (he : protocolEnabled c (rowProtocol n) = true) :
    ∃ r ∈ c.romSync, r.name = n ∧ ∃ p, r.pattern = some p ∧ p.length = r.len := by
  simp only [configLegal, Bool.and_eq_true] at h
  have hp : rowsPresent c = true := by tauto
  have hs := List.all_eq_true.mp (show c.romSync.all (syncRowLegal c) = true by tauto)
  obtain ⟨r, hr, rfl⟩ : ∃ r ∈ c.romSync, r.name = n := by
    simpa [he] using List.all_eq_true.mp hp n hn
  have hl := hs r hr
  simp only [syncRowLegal, Bool.and_eq_true, beq_iff_eq] at hl
  have hproto : r.proto = rowProtocol r.name := by tauto
  refine ⟨r, hr, rfl, ?_⟩
  cases hq : r.pattern with
  | none => simp [hq, hproto, he] at hl
  | some p => exact ⟨p, rfl, by simp only [hq] at hl; simpa using hl.1.1.1.1.2⟩

/-- What `ROM.DMRSYNC` holds in a legal configuration (R50): four constants of 24 characters, the data constants the inverses
of the voice constants, each the pattern of every row of `ROM.SYNC` it belongs to. -/
theorem configLegal_dmrConstants {c : Config} (h : configLegal c = true) :
    (c.bsVoice.length = 24 ∧ c.msVoice.length = 24 ∧ c.bsData.length = 24 ∧ c.msData.length = 24) ∧
      c.bsData = inversePattern c.bsVoice ∧ c.msData = inversePattern c.msVoice ∧
      ∀ r ∈ c.romSync, ∀ p, dmrConstant c r.name = some p → r.pattern = some p := by
  have hd : dmrConstantsLegal c = true := by simp only [configLegal, Bool.and_eq_true] at h; tauto
  simp only [dmrConstantsLegal, Bool.and_eq_true, beq_iff_eq, List.all_eq_true] at hd
  obtain ⟨⟨⟨⟨hbv, hmv⟩, hb⟩, hm⟩, hr⟩ := hd
  refine ⟨⟨hbv, hmv, by simpa [hb, inversePattern] using hbv, by simpa [hm, inversePattern] using hmv⟩, hb, hm, ?_⟩
  intro r hrm p hp
  simpa [hp] using hr r hrm

/-- The codes of a row of a legal table are frame-type codes (R46, R61). -/
theorem codeOf_legal {c : Config} (h : configLegal c = true) {r : SyncRow} (hr : r ∈ c.romSync) :
    (codeOf c r).toNat < 20 := by
  simp only [configLegal, Bool.and_eq_true] at h
  have hs := List.all_eq_true.mp (show c.romSync.all (syncRowLegal c) = true by tauto) r hr
  simp only [syncRowLegal, codeLegal, Bool.and_eq_true, decide_eq_true_eq] at hs
  unfold codeOf
  split
  · split <;> tauto
  · split <;> tauto
  · tauto

/-- The first match is a row of the table. -/
theorem firstRow_mem {c : Config} {w : Vector Went 32} {l : List SyncRow} {r : SyncRow}
    (h : firstRow c w l = some r) : r ∈ l := by
  induction l with
  | nil => simp [firstRow] at h
  | cons q l ih =>
    unfold firstRow at h
    split at h
    · cases h; exact List.mem_cons_self
    · exact List.mem_cons_of_mem _ (ih h)

/-- The first match of a state is a row of its table. -/
theorem firstMatch_mem {s : State} {r : SyncRow} (h : firstMatch s = some r) : r ∈ s.cfg.romSync := by
  unfold firstMatch at h
  split at h
  · simp at h
  · exact firstRow_mem h

/-! ### Numbers into registers -/

/-- A number that fits its unsigned register is written as it is. -/
theorem fitU_of_lt {w n : Nat} (r : Counter) (h : n < 2 ^ w) : fitU w r n = BitVec.ofNat w n := if_pos h

/-- A number that fits its unsigned register is read back. -/
theorem fitU_toNat {w n : Nat} (r : Counter) (h : n < 2 ^ w) : (fitU w r n).toNat = n := by
  rw [fitU_of_lt r h, BitVec.toNat_ofNat, Nat.mod_eq_of_lt h]

/-- A number that fits its signed register is written as it is. -/
theorem fitS_of_mem {w : Nat} {x : Int} (r : Counter) (h : -(2 ^ (w - 1)) ≤ x ∧ x < 2 ^ (w - 1)) :
    fitS w r x = BitVec.ofInt w x := if_pos h

/-- A counter below its last value counts. -/
theorem countUp_toNat {w : Nat} (r : Counter) (v : BitVec w) (h : v.toNat + 1 < 2 ^ w) :
    (countUp r v).toNat = v.toNat + 1 := fitU_toNat r h

/-- A counter below its last value counts. -/
theorem countUp_of_lt {w : Nat} (r : Counter) (v : BitVec w) (h : v.toNat + 1 < 2 ^ w) : countUp r v = v + 1 := by
  rw [countUp, fitU_of_lt r h, BitVec.ofNat_add, BitVec.ofNat_toNat, BitVec.setWidth_eq]; rfl

/-! ### History and dibits -/

/-- A look-back inside the ring answers (R43). -/
theorem histBack_ok {s : State} {n : Nat} (h1 : 1 ≤ n) (h2 : n ≤ s.cfg.histCap) : histBack s n = .ok (lookBack s n) :=
  if_pos ⟨h1, h2⟩

/-- `DBT.NEXT` succeeds exactly under a lock on a code of R61, pushes the raw value and returns the logical one. -/
theorem dbtNext_ok_iff {s t : State} {d : Dibit} :
    dbtNext s = .ok (t, d) ↔ s.car.synctype ≠ ftypeNone ∧ synctypeLegal s = true ∧
      t = histPush (slice s.car.synctype s.car s.str.symbol).raw s ∧
      d = (slice s.car.synctype s.car s.str.symbol).ret := by
  unfold dbtNext
  split
  · simp [*]
  · split
    · simp [*]
    · simp_all only [ne_eq, not_false_eq_true, true_and, Bool.not_eq_false]
      constructor
      · intro h; cases h; exact ⟨rfl, rfl⟩
      · rintro ⟨rfl, rfl⟩; rfl

/-- `synctypeLegal` is the range of R61. -/
theorem synctypeLegal_iff {s : State} : synctypeLegal s = true ↔ ftypeOk s.car.synctype := decide_eq_true_iff

/-! ### Symbol timing -/

/-- Inside a period `STR.PUSH` takes the sample in and emits nothing (R84). -/
theorem strPush_inside {s : State} {v : Sample} {sync : Bool}
    (h : (strIntake v sync s).str.sidx.toNat < (strIntake v sync s).str.plen.toNat) :
    strPush v sync s = (strIntake v sync s, none) := if_pos h

/-- At the end of a period `STR.PUSH` emits the average and writes the boundary (R84 to R88). -/
theorem strPush_boundary {s : State} {v : Sample} {sync : Bool}
    (h : ¬ (strIntake v sync s).str.sidx.toNat < (strIntake v sync s).str.plen.toNat) :
    strPush v sync s = (boundary sync (strIntake v sync s), some (average (strIntake v sync s))) := if_neg h

/-- A state that agrees with another in everything but STR and MAJ registers. -/
theorem eq_with_timing {s t : State} (h1 : t.fsm = s.fsm) (h2 : t.car = s.car) (h3 : t.fs = s.fs) (h4 : t.dmr = s.dmr)
    (h5 : t.dst = s.dst) (h6 : t.hdr = s.hdr) (h7 : t.hist = s.hist) (h8 : t.cfg = s.cfg) (h9 : t.cfgReset = s.cfgReset)
    (h10 : t.input = s.input) (h11 : t.events = s.events) (h12 : t.ret = s.ret) :
    t = { s with str := t.str, maj := t.maj } := by
  cases s; cases t; simp_all

/-- The registers of other units are unchanged by `STR.PUSH`. -/
theorem strPush_frame (v : Sample) (sync : Bool) (s : State) :
    ∃ str maj, (strPush v sync s).1 = { s with str := str, maj := maj } := by
  by_cases h : (strIntake v sync s).str.sidx.toNat < (strIntake v sync s).str.plen.toNat
  · rw [strPush_inside h]
    exact ⟨_, _, by apply eq_with_timing <;> simp⟩
  · rw [strPush_boundary h]
    exact ⟨_, _, by apply eq_with_timing <;> simp⟩

/-! ### Frame sync -/

/-- The ways a symbol without a confirmed match ends (R106 (b), R107). -/
theorem searchMiss_cases (s : State) :
    searchMiss s = (noCarrier (countMiss (expireHint s)), .noSync) ∨
      searchMiss s = (countMiss (expireHint s), .none) := by
  simp only [searchMiss, carrierWatch]
  split
  · exact .inl rfl
  · exact .inr rfl

/-- The ways `FS.STEP` ends (R95): without a match, with a confirmed match, with a pending first hit. -/
theorem fsStep_cases (v : Sample) (s : State) :
    (firstMatch (searchIntake v s) = none ∧ fsStep v s = searchMiss (searchIntake v s)) ∨
    ∃ r, firstMatch (searchIntake v s) = some r ∧
      (fsStep v s = (dropHint (recalibrate (searchIntake v s)), .sync (codeOf (searchIntake v s).cfg r)) ∨
        r.twoHit = true ∧
          fsStep v s = searchMiss
            { recalibrate (searchIntake v s) with
              fs.hint := codeOf (searchIntake v s).cfg r, fs.tHint := 0 }) := by
  unfold fsStep
  cases hm : firstMatch (searchIntake v s) with
  | none => exact .inl ⟨rfl, by simp only [hm]⟩
  | some r =>
    refine .inr ⟨r, by simp, ?_⟩
    simp only [hm]
    unfold twoHit
    cases ht : r.twoHit with
    | false => exact .inl rfl
    | true =>
      simp only [Bool.true_eq_false, if_false]
      split
      · exact .inl rfl
      · exact .inr ⟨trivial, rfl⟩

/-! ### DMR -/

/-- A slot operation writes DMR registers and appends events, nothing else, and moves no position counter. -/
theorem slotOperation_frame (sub : Nat) (d : Dibit) (k : Nat) (s : State) :
    ∃ dmr events, slotOperation sub d k s = { s with dmr := dmr, events := events } ∧
      dmr.symbolIndex = s.dmr.symbolIndex ∧ dmr.dcount = s.dmr.dcount := by
  have hsync : ∀ u : State, ∃ dmr, syncEval u = { u with dmr := dmr } ∧ dmr.symbolIndex = u.dmr.symbolIndex ∧
      dmr.dcount = u.dmr.dcount := by
    intro u
    simp only [syncEval, setLight]
    repeat' split
    all_goals exact ⟨_, rfl, rfl, rfl⟩
  unfold slotOperation
  split
  · exact ⟨_, _, rfl, rfl, rfl⟩
  · simp only [slot1]; split <;> exact ⟨_, _, rfl, rfl, rfl⟩
  · exact ⟨_, _, rfl, rfl, rfl⟩
  · exact ⟨_, _, rfl, rfl, rfl⟩
  · simp only [slot4]
    split
    · obtain ⟨dmr, h, hi, hd⟩ := hsync { s with dmr.syncf := s.dmr.syncf.setIfInBounds k (syncChar d) }
      exact ⟨dmr, s.events, h, hi, hd⟩
    · exact ⟨_, _, rfl, rfl, rfl⟩
  · simp only [slot5, emit]; split <;> exact ⟨_, _, rfl, rfl, rfl⟩
  · simp only [slot6, emit]; split <;> exact ⟨_, _, rfl, rfl, rfl⟩
  · exact ⟨_, _, rfl, rfl, rfl⟩
  · exact ⟨_, _, rfl, rfl, rfl⟩
  · exact ⟨_, _, rfl, rfl, rfl⟩
  · exact ⟨_, _, rfl, rfl, rfl⟩
  · exact ⟨_, _, rfl, rfl, rfl⟩

/-- `sync_eval` writes the mute flag, a light and the mode, nothing else (R165). -/
theorem syncEval_frame (s : State) :
    ∃ mute msMode light, syncEval s = { s with dmr.mute := mute, dmr.msMode := msMode, dmr.slotlight := light } ∧
      (light = s.dmr.slotlight ∨
        ∃ l : BitVec 2, l ≠ 3 ∧ light = s.dmr.slotlight.setIfInBounds s.dmr.currentslot.toNat l) := by
  simp only [syncEval, setLight]
  repeat' split
  all_goals first
    | exact ⟨_, _, _, rfl, .inl rfl⟩
    | exact ⟨_, _, _, rfl, .inr ⟨lightData, by decide, rfl⟩⟩
    | exact ⟨_, _, _, rfl, .inr ⟨lightVoice, by decide, rfl⟩⟩

/-- What `process` writes at a position: DMR registers and events (R151). -/
theorem process_frame (idx : Nat) (d : Dibit) (s : State) :
    ∃ dmr events, process idx d s = { s with dmr := dmr, events := events } ∧
      dmr.symbolIndex = s.dmr.symbolIndex ∧ dmr.dcount = s.dmr.dcount :=
  slotOperation_frame _ d _ s

/-- What the replay writes: DMR registers and events; the history it reads stays as it was (R152). -/
theorem replay_frame (x : Dibit) (ps : List Nat) (s : State) :
    ∃ dmr events, replay x ps s = { s with dmr := dmr, events := events } := by
  induction ps generalizing s with
  | nil => exact ⟨_, _, rfl⟩
  | cons p ps ih =>
    obtain ⟨dmr, events, h, -, -⟩ := process_frame p (lookBack s (144 - p) ^^^ x) s
    obtain ⟨dmr', events', h'⟩ := ih (process p (lookBack s (144 - p) ^^^ x) s)
    exact ⟨dmr', events', by rw [replay, h', h]⟩

/-- What `DMRV.ENTER` answers when it succeeds: the state of a voice lock at position 144 (R152). -/
theorem dmrvEnter_ok {s t : State} (h : dmrvEnter s = .ok t) :
    synctypeLegal s = true ∧ ∃ dmr events,
      t = { s with fsm := processingDmrVoice, dmr := dmr, events := events } ∧ dmr.symbolIndex = 144 := by
  unfold dmrvEnter at h
  generalize List.range' 54 90 = ps at h
  split at h
  · cases h
  · rename_i hl
    refine ⟨by simpa using hl, ?_⟩
    split at h
    · cases h
    · cases h
      obtain ⟨dmr, events, hr⟩ := replay_frame (if s.car.synctype = 11 then 2 else 0) ps
        { s with fsm := processingDmrVoice }
      exact ⟨{ dmr with symbolIndex := 144 }, events, by simp only [hr], rfl⟩

/-- What `DMRD.ENTER` answers when it succeeds: the state of a data lock (R166). -/
theorem dmrdEnter_ok {s t : State} (h : dmrdEnter s = .ok t) :
    synctypeLegal s = true ∧ ∃ dmr events,
      t = { s with fsm := processingDmrData, dmr := dmr, events := events } ∧ dmr.dcount = 0 := by
  unfold dmrdEnter at h
  split at h
  · cases h
  · rename_i hl
    refine ⟨by simpa using hl, ?_⟩
    split at h
    · cases h
    · cases h
      obtain ⟨mute, msMode, light, hs, -⟩ := syncEval_frame { s with
        fsm := processingDmrData
        dmr.cach := tabulate 12 fun k => dataBack s (90 - k)
        dmr.currentslot := slotBit s.cfg (dataBack s (90 - s.cfg.cachSlotDibit))
        dmr.slottype := dataBack s 29 ++ dataBack s 28
        dmr.bursttype := dataBack s 27 ++ dataBack s 26
        dmr.syncf := tabulate 24 fun k => syncChar (dataBack s (24 - k)) }
      simp only [hs]
      exact ⟨_, _, rfl, rfl⟩

/-! ### Conditions -/

/-- The conditions that restart the search leave the block searching, unlocked, with an empty window (R206, R218, R221,
R222); the two others do not move `fsm` (R217, R219, R220). -/
theorem takeCondition_fsm (c : Cond) (s : State) :
    (takeCondition c s).fsm =
      if c ∈ [Cond.carrierLoss, .syncMissExceeded, .frameDone, .endOfTx, .foreignSync] then lookingForSync else s.fsm := by
  cases c
  case noSync =>
    simp only [takeCondition, countMiss_fsm, expireHint_fsm, searchIntake_fsm]
    rfl
  all_goals rfl

/-- The events a condition gives (R217 to R222). -/
theorem takeCondition_events (c : Cond) (s : State) :
    (takeCondition c s).events = s.events ++
      match c with
      | .carrierLoss => [Event.noSync]
      | .bitSlip => [.bitSlip s.dst.dstPos]
      | .endOfTx => [.endOfTx]
      | _ => [] := by
  cases c
  case noSync =>
    simp only [takeCondition, countMiss_events, expireHint_events, searchIntake_events, List.append_nil]
  case carrierLoss => rfl
  case bitSlip => rfl
  case endOfTx => rfl
  all_goals exact (List.append_nil _).symm

/-! ### The D-STAR segment -/

/-- The two ways a segment ends that is not the end of transmission (R184, R186). -/
theorem endSegment_cases (s : State) :
    (s.cfg.dstarMissLimit ≤ s.dst.miss.toNat ∧ endSegment s = toSearch s) ∨
      (s.dst.miss.toNat < s.cfg.dstarMissLimit ∧ endSegment s = { s with dst.dstPos := 0 }) := by
  unfold endSegment
  split
  · exact .inl ⟨‹_›, rfl⟩
  · exact .inr ⟨Nat.lt_of_not_le ‹_›, rfl⟩

/-- The ways the evaluation of a data segment goes (R184): sync, end of transmission, or a reported segment. -/
theorem evaluate_cases (s : State) :
    let u : State := { s with
      dst.dfirst := false
      dst.dphase := fitU 8 .dphase ((s.dst.dphase.toNat + 1) % s.cfg.dstarSyncPeriod) }
    (s.dst.bitbuf = s.cfg.dstarSync24 ∧ evaluate s = endSegment { u with dst.miss := 0 }) ∨
      (s.dst.bitbuf ≠ s.cfg.dstarSync24 ∧ s.dst.bitbuf = s.cfg.dstarEot24 ∧ evaluate s = takeCondition .endOfTx u) ∨
      (s.dst.bitbuf ≠ s.cfg.dstarSync24 ∧ s.dst.bitbuf ≠ s.cfg.dstarEot24 ∧
        evaluate s = endSegment (reportSlowData s.dst.dfirst { u with
          dst.miss :=
            if fitU 8 .dphase ((s.dst.dphase.toNat + 1) % s.cfg.dstarSyncPeriod) = 0 then countUp .miss s.dst.miss
            else s.dst.miss })) := by
  simp only [evaluate]
  by_cases h : s.dst.bitbuf = s.cfg.dstarSync24
  · rw [if_pos h]; exact .inl ⟨h, rfl⟩
  · rw [if_neg h]
    by_cases h' : s.dst.bitbuf = s.cfg.dstarEot24
    · rw [if_pos h']; exact .inr (.inl ⟨h, h', rfl⟩)
    · rw [if_neg h']; exact .inr (.inr ⟨h, h', rfl⟩)

/-- What the voice-segment part of `DSTV.BIT` does: a slip, or the bit scattered and the position advanced (R178 to
R180). -/
theorem voiceBit_cases (b : Bool) (s : State) :
    (s.dst.bitbuf = s.cfg.dstarSync24 ∧ voiceBit b s = takeCondition .bitSlip s) ∨
      (s.dst.bitbuf ≠ s.cfg.dstarSync24 ∧ ∃ dfr events,
        voiceBit b s = { s with dst.dfr := dfr, dst.dstPos := countUp .dstPos s.dst.dstPos, events := events }) := by
  simp only [voiceBit]
  by_cases h : s.dst.bitbuf = s.cfg.dstarSync24
  · rw [if_pos h]; exact .inl ⟨h, rfl⟩
  · rw [if_neg h]
    refine .inr ⟨h, ?_⟩
    split <;> exact ⟨_, _, rfl⟩

/-! ### The step of each protocol state -/

/-- What `DMRV.STEP` answers when it succeeds (R153). -/
theorem dmrvStep_ok {s t : State} (h : dmrvStep s = .ok t) :
    ∃ u d, dbtNext s = .ok (u, d) ∧
      t = (let m := process u.dmr.symbolIndex.toNat d u
           let m : State := { m with dmr.symbolIndex := countUp .symbolIndex m.dmr.symbolIndex }
           if m.cfg.dmrVoiceEnd ≤ m.dmr.symbolIndex.toNat then toSearch m else m) := by
  unfold dmrvStep at h
  cases hd : dbtNext s with
  | error r => simp [hd] at h
  | ok p => simp only [hd] at h; cases h; exact ⟨p.1, p.2, rfl, rfl⟩

/-- What `DMRD.STEP` answers when it succeeds (R168). -/
theorem dmrdStep_ok {s t : State} (h : dmrdStep s = .ok t) :
    ∃ u d, dbtNext s = .ok (u, d) ∧
      t = (let m : State := { u with dmr.dcount := countUp .dcount u.dmr.dcount }
           if m.cfg.dmrDataSpan ≤ m.dmr.dcount.toNat then toSearch m else m) := by
  unfold dmrdStep at h
  cases hd : dbtNext s with
  | error r => simp [hd] at h
  | ok p => simp only [hd] at h; cases h; exact ⟨p.1, p.2, rfl, rfl⟩

/-- What `intake` answers when it succeeds (R177). -/
theorem intake_ok {s t : State} {b : Bool} (h : intake s = .ok (t, b)) :
    ∃ u d, dbtNext s = .ok (u, d) ∧ b = dibitLo d ∧ t = { u with dst.bitbuf := shiftBit u.dst.bitbuf b } := by
  unfold intake at h
  cases hd : dbtNext s with
  | error r => simp [hd] at h
  | ok p => simp only [hd] at h; cases h; exact ⟨p.1, p.2, rfl, rfl, rfl⟩

/-- What `DSTV.BIT` answers when it succeeds (R178). -/
theorem dstvBit_ok {s t : State} (h : dstvBit s = .ok t) :
    s.dst.dstPos.toNat < 72 ∧ ∃ u b, intake s = .ok (u, b) ∧ t = voiceBit b u := by
  unfold dstvBit at h
  split at h
  · cases h
  · rename_i hp
    refine ⟨Nat.lt_of_not_le hp, ?_⟩
    cases hi : intake s with
    | error r => simp [hi] at h
    | ok p => simp only [hi] at h; cases h; exact ⟨p.1, p.2, rfl, rfl⟩

/-- What `DSTD.BIT` answers when it succeeds (R181). -/
theorem dstdBit_ok {s t : State} (h : dstdBit s = .ok t) :
    72 ≤ s.dst.dstPos.toNat ∧ ∃ u b, intake s = .ok (u, b) ∧ t = dataBit b u := by
  unfold dstdBit at h
  split at h
  · cases h
  · rename_i hp
    refine ⟨Nat.le_of_not_lt hp, ?_⟩
    cases hi : intake s with
    | error r => simp [hi] at h
    | ok p => simp only [hi] at h; cases h; exact ⟨p.1, p.2, rfl, rfl⟩

/-- What `DSTH.DECODE` answers when it succeeds (R190, R192). -/
theorem dsthDecode_ok {s t : State} (h : dsthDecode s = .ok t) :
    synctypeLegal s = true ∧
      t = emit (.dstarHeader (headerOf s.cfg (headerBits s))) { s with hdr.header := headerOf s.cfg (headerBits s) } := by
  unfold dsthDecode at h
  split at h
  · cases h
  · rename_i hl
    split at h
    · cases h
    · cases h; exact ⟨by simpa using hl, rfl⟩

/-- What `DSTH.BIT` answers when it succeeds (R189). -/
theorem dsthBit_ok {s t : State} (h : dsthBit s = .ok t) :
    ∃ u d, dbtNext s = .ok (u, d) ∧
      (let m : State := { u with hdr.hdCnt := countUp .hdCnt u.hdr.hdCnt }
       (m.hdr.hdCnt.toNat ≠ 660 ∧ t = m) ∨
        (m.hdr.hdCnt.toNat = 660 ∧ ∃ w, dsthDecode m = .ok w ∧ t = toSearch w)) := by
  unfold dsthBit at h
  cases hd : dbtNext s with
  | error r => simp [hd] at h
  | ok p =>
    simp only [hd] at h
    refine ⟨p.1, p.2, rfl, ?_⟩
    split at h
    · rename_i hc
      refine .inr ⟨hc, ?_⟩
      split at h
      · cases h
      · rename_i w hw
        cases h
        exact ⟨w, hw, rfl⟩
    · rename_i hc
      cases h
      exact .inl ⟨hc, rfl⟩

/-! ### The orchestrator -/

/-- What the entry by frame-type code answers when it succeeds (R204, R205). -/
theorem enter_ok {code : Ftype} {s t : State} (h : enter code s = .ok t) :
    ((code = 11 ∨ code = 12) ∧ dmrvEnter s = .ok t) ∨ ((code = 10 ∨ code = 13) ∧ dmrdEnter s = .ok t) ∨
      ((code = 6 ∨ code = 7) ∧ t = dstEnter s) ∨ ((code = 18 ∨ code = 19) ∧ t = dsthEnter s) ∨
      (code ∉ ([6, 7, 10, 11, 12, 13, 18, 19] : List Ftype) ∧ t = toSearch s) := by
  unfold enter at h
  split at h
  · exact .inl ⟨‹_›, h⟩
  · split at h
    · exact .inr (.inl ⟨‹_›, h⟩)
    · split at h
      · cases h; exact .inr (.inr (.inl ⟨‹_›, rfl⟩))
      · split at h
        · cases h; exact .inr (.inr (.inr (.inl ⟨‹_›, rfl⟩)))
        · cases h
          refine .inr (.inr (.inr (.inr ⟨?_, rfl⟩)))
          simp only [List.mem_cons, List.not_mem_nil, or_false]
          tauto

/-- What a lock answers when it succeeds (R203). -/
theorem lockOn_eq (code : Ftype) (s : State) :
    lockOn code s = enter code { s with
      car.synctype := code, car.lastsynctype := code, car.carrier := true, events := s.events ++ [.sync code] } := rfl

/-- The operation a symbol selects (R58, R200), by the state machine's state and, in `ProcessingDStar`, the position. -/
theorem selectOperation_dispatchWord (s u : State) :
    selectOperation (dispatchWord s) u =
      if s.fsm = 0 then onSearch u.str.symbol u
      else if s.fsm = 1 then dmrvStep u
      else if s.fsm = 2 then dmrdStep u
      else if s.fsm = 3 then (if s.dst.dstPos.toNat < 72 then dstvBit u else dstdBit u)
      else if s.fsm = 4 then dsthBit u
      else .error .reservedFsm := by
  have hcode : (dispatchWord s).extractLsb' 4 3 = s.fsm := by
    rw [dispatchWord, BitVec.extractLsb'_append_eq_of_le (by omega)]
    simp
  have hsub : (dispatchWord s).extractLsb' 0 4 = BitVec.ofNat 4 (subField s) := by
    rw [dispatchWord, BitVec.extractLsb'_append_eq_of_add_le (by omega)]
    simp
  simp only [selectOperation, hcode, hsub]
  repeat' split
  all_goals first | rfl | skip
  all_goals simp_all [subField, Config.voiceSegment]

/-- `ORC.PUSH` (R200, R201): the sample taken in; with no symbol nothing else, with a symbol the selected operation. -/
theorem orcPush_cases (v : Sample) (s : State) :
    ((strPush v (haveSync s) { s with events := [] }).2 = none ∧
      orcPush v s = .ok (strPush v (haveSync s) { s with events := [] }).1) ∨
    ∃ y, (strPush v (haveSync s) { s with events := [] }).2 = some y ∧
      orcPush v s = selectOperation (dispatchWord s)
        { (strPush v (haveSync s) { s with events := [] }).1 with str.symbol := y } := by
  unfold orcPush
  obtain ⟨t, y⟩ := strPush v (haveSync s) { s with events := [] }
  cases y with
  | none => exact .inl ⟨rfl, rfl⟩
  | some y => exact .inr ⟨y, rfl, rfl⟩

end Sys2Proof.Machine
end

