-- ==== Sys2Proof/Laws/PerInstr.lean ====
section
/-! SUPPORT. The family `EncodedShape`: the word the encoder writes for an instruction has the format and code of its row
of spec/opcode_table.json and an operand field no wider than the instruction's. -/

namespace Sys2Proof

/-- The code field of a packed word. -/
theorem wordCode_packWord (c f : BitVec 8) (o : Nat) : wordCode (packWord c f o) = c := by
  apply BitVec.eq_of_toNat_eq
  have := c.isLt
  simp only [wordCode, packWord, BitVec.toNat_ofNat]
  omega

/-- The format field of a packed word. -/
theorem wordFormat_packWord (c f : BitVec 8) (o : Nat) : wordFormat (packWord c f o) = f := by
  apply BitVec.eq_of_toNat_eq
  have := c.isLt
  have := f.isLt
  simp only [wordFormat, packWord, BitVec.toNat_ofNat]
  omega

/-- The operand field of a packed word. -/
theorem wordOperand_packWord (c f : BitVec 8) (o : Nat) : wordOperand (packWord c f o) = o := by
  have := c.isLt
  have := f.isLt
  simp only [wordOperand, packWord]
  omega

/-- The operand field of a slot operation is 8 bits. -/
theorem slotOperand_lt (d : Dibit) (k : BitVec 6) : slotOperand d k < 2 ^ 8 := by
  have := d.isLt
  have := k.isLt
  simp only [slotOperand]
  omega

/-- The operand field of a sample with a flag is 17 bits. -/
theorem sampleFlagOperand_lt (v : Sample) (b : Bool) : sampleFlagOperand v b < 2 ^ 17 := by
  have := v.isLt
  have : b.toNat ≤ 1 := Bool.toNat_le b
  simp only [sampleFlagOperand]
  omega

/-- The operand field of a sample is 16 bits. -/
theorem sampleOperand_lt (v : Sample) : sampleOperand v < 2 ^ 16 := v.isLt

/-- The operand field of a block is 660 bits. -/
theorem blockOperand_lt (b : Block) : blockOperand b < 2 ^ 660 := b.isLt

/-- The shape of an encoded word: its format byte, the row of that format its code belongs to, and an operand field no
wider than the instruction's. -/
def Laws.EncodedShape.Statement (i : Instr) : Prop :=
  (∃ rows r, formatRows (wordFormat (encode i)) = some rows ∧ findRow (wordCode (encode i)) rows = some r) ∧
    wordOperand (encode i) < 2 ^ operandWidth i

/-- A packed word of a row has the shape. -/
theorem shape_of_packWord {i : Instr} {c f : BitVec 8} {o : Nat} (he : encode i = packWord c f o)
    (hr : ((formatRows f).bind (findRow c)).isSome = true) (ho : o < 2 ^ operandWidth i) :
    Laws.EncodedShape.Statement i := by
  refine ⟨?_, by rw [he, wordOperand_packWord]; exact ho⟩
  rw [he, wordFormat_packWord, wordCode_packWord]
  cases hf : formatRows f with
  | none => simp [hf] at hr
  | some rows =>
    cases hc : findRow c rows with
    | none => simp [hf, hc] at hr
    | some r => exact ⟨rows, r, rfl, hc⟩

namespace Laws

theorem EncodedShape.fsStep : EncodedShape.Statement .fsStep := shape_of_packWord rfl rfl (by decide)

theorem EncodedShape.dmrvSlot0 (d : Dibit) (k : BitVec 6) : EncodedShape.Statement (.dmrvSlot0 d k) :=
  shape_of_packWord rfl rfl (slotOperand_lt d k)

theorem EncodedShape.dmrvSlot1 (d : Dibit) (k : BitVec 6) : EncodedShape.Statement (.dmrvSlot1 d k) :=
  shape_of_packWord rfl rfl (slotOperand_lt d k)

theorem EncodedShape.dmrvSlot2 (d : Dibit) (k : BitVec 6) : EncodedShape.Statement (.dmrvSlot2 d k) :=
  shape_of_packWord rfl rfl (slotOperand_lt d k)

theorem EncodedShape.dmrvSlot3 (d : Dibit) (k : BitVec 6) : EncodedShape.Statement (.dmrvSlot3 d k) :=
  shape_of_packWord rfl rfl (slotOperand_lt d k)

theorem EncodedShape.dmrvSlot4 (d : Dibit) (k : BitVec 6) : EncodedShape.Statement (.dmrvSlot4 d k) :=
  shape_of_packWord rfl rfl (slotOperand_lt d k)

theorem EncodedShape.dmrvSlot5 (d : Dibit) (k : BitVec 6) : EncodedShape.Statement (.dmrvSlot5 d k) :=
  shape_of_packWord rfl rfl (slotOperand_lt d k)

theorem EncodedShape.dmrvSlot6 (d : Dibit) (k : BitVec 6) : EncodedShape.Statement (.dmrvSlot6 d k) :=
  shape_of_packWord rfl rfl (slotOperand_lt d k)

theorem EncodedShape.dmrvSlot7 (d : Dibit) (k : BitVec 6) : EncodedShape.Statement (.dmrvSlot7 d k) :=
  shape_of_packWord rfl rfl (slotOperand_lt d k)

theorem EncodedShape.dmrvSlot8 (d : Dibit) (k : BitVec 6) : EncodedShape.Statement (.dmrvSlot8 d k) :=
  shape_of_packWord rfl rfl (slotOperand_lt d k)

theorem EncodedShape.dmrvSlot9 (d : Dibit) (k : BitVec 6) : EncodedShape.Statement (.dmrvSlot9 d k) :=
  shape_of_packWord rfl rfl (slotOperand_lt d k)

theorem EncodedShape.dmrvSlot10 (d : Dibit) (k : BitVec 6) : EncodedShape.Statement (.dmrvSlot10 d k) :=
  shape_of_packWord rfl rfl (slotOperand_lt d k)

theorem EncodedShape.dmrvTail (d : Dibit) (k : BitVec 6) : EncodedShape.Statement (.dmrvTail d k) :=
  shape_of_packWord rfl rfl (slotOperand_lt d k)

theorem EncodedShape.dmrdStep : EncodedShape.Statement .dmrdStep := shape_of_packWord rfl rfl (by decide)

theorem EncodedShape.dstvBit : EncodedShape.Statement .dstvBit := shape_of_packWord rfl rfl (by decide)

theorem EncodedShape.dstdBit : EncodedShape.Statement .dstdBit := shape_of_packWord rfl rfl (by decide)

theorem EncodedShape.dsthBit : EncodedShape.Statement .dsthBit := shape_of_packWord rfl rfl (by decide)

theorem EncodedShape.dispatchReserved5 : EncodedShape.Statement .dispatchReserved5 := shape_of_packWord rfl rfl (by decide)

theorem EncodedShape.dispatchReserved67 : EncodedShape.Statement .dispatchReserved67 := shape_of_packWord rfl rfl (by decide)

theorem EncodedShape.ftypeP25p1 : EncodedShape.Statement .ftypeP25p1 := shape_of_packWord rfl rfl (by decide)

theorem EncodedShape.ftypeP25p1Inv : EncodedShape.Statement .ftypeP25p1Inv := shape_of_packWord rfl rfl (by decide)

theorem EncodedShape.ftypeX2tdmaData : EncodedShape.Statement .ftypeX2tdmaData := shape_of_packWord rfl rfl (by decide)

theorem EncodedShape.ftypeX2tdmaVoiceInv : EncodedShape.Statement .ftypeX2tdmaVoiceInv := shape_of_packWord rfl rfl (by decide)

theorem EncodedShape.ftypeX2tdmaVoice : EncodedShape.Statement .ftypeX2tdmaVoice := shape_of_packWord rfl rfl (by decide)

theorem EncodedShape.ftypeX2tdmaDataInv : EncodedShape.Statement .ftypeX2tdmaDataInv := shape_of_packWord rfl rfl (by decide)

theorem EncodedShape.ftypeDstar : EncodedShape.Statement .ftypeDstar := shape_of_packWord rfl rfl (by decide)

theorem EncodedShape.ftypeDstarInv : EncodedShape.Statement .ftypeDstarInv := shape_of_packWord rfl rfl (by decide)

theorem EncodedShape.ftypeNxdnVoice : EncodedShape.Statement .ftypeNxdnVoice := shape_of_packWord rfl rfl (by decide)

theorem EncodedShape.ftypeNxdnVoiceInv : EncodedShape.Statement .ftypeNxdnVoiceInv := shape_of_packWord rfl rfl (by decide)

theorem EncodedShape.ftypeDmrData : EncodedShape.Statement .ftypeDmrData := shape_of_packWord rfl rfl (by decide)

theorem EncodedShape.ftypeDmrVoiceInv : EncodedShape.Statement .ftypeDmrVoiceInv := shape_of_packWord rfl rfl (by decide)

theorem EncodedShape.ftypeDmrVoice : EncodedShape.Statement .ftypeDmrVoice := shape_of_packWord rfl rfl (by decide)

theorem EncodedShape.ftypeDmrDataInv : EncodedShape.Statement .ftypeDmrDataInv := shape_of_packWord rfl rfl (by decide)

theorem EncodedShape.ftypeProvoice : EncodedShape.Statement .ftypeProvoice := shape_of_packWord rfl rfl (by decide)

theorem EncodedShape.ftypeProvoiceInv : EncodedShape.Statement .ftypeProvoiceInv := shape_of_packWord rfl rfl (by decide)

theorem EncodedShape.ftypeNxdnData : EncodedShape.Statement .ftypeNxdnData := shape_of_packWord rfl rfl (by decide)

theorem EncodedShape.ftypeNxdnDataInv : EncodedShape.Statement .ftypeNxdnDataInv := shape_of_packWord rfl rfl (by decide)

theorem EncodedShape.ftypeDstarhd : EncodedShape.Statement .ftypeDstarhd := shape_of_packWord rfl rfl (by decide)

theorem EncodedShape.ftypeDstarhdInv : EncodedShape.Statement .ftypeDstarhdInv := shape_of_packWord rfl rfl (by decide)

theorem EncodedShape.ftypeNone : EncodedShape.Statement .ftypeNone := shape_of_packWord rfl rfl (by decide)

theorem EncodedShape.uopStrPush (v : Sample) (b : Bool) : EncodedShape.Statement (.uopStrPush v b) :=
  shape_of_packWord rfl rfl (sampleFlagOperand_lt v b)

theorem EncodedShape.uopMajVote : EncodedShape.Statement .uopMajVote := shape_of_packWord rfl rfl (by decide)

theorem EncodedShape.uopFsStep (v : Sample) : EncodedShape.Statement (.uopFsStep v) :=
  shape_of_packWord rfl rfl (sampleOperand_lt v)

theorem EncodedShape.uopFsNocarrier : EncodedShape.Statement .uopFsNocarrier := shape_of_packWord rfl rfl (by decide)

theorem EncodedShape.uopDbtNext : EncodedShape.Statement .uopDbtNext := shape_of_packWord rfl rfl (by decide)

theorem EncodedShape.uopDscXor660 (b : Block) : EncodedShape.Statement (.uopDscXor660 b) :=
  shape_of_packWord rfl rfl (blockOperand_lt b)

theorem EncodedShape.uopDilPerm660 (b : Block) : EncodedShape.Statement (.uopDilPerm660 b) :=
  shape_of_packWord rfl rfl (blockOperand_lt b)

theorem EncodedShape.uopVitDecode (b : Block) : EncodedShape.Statement (.uopVitDecode b) :=
  shape_of_packWord rfl rfl (blockOperand_lt b)

theorem EncodedShape.uopDmrvEnter : EncodedShape.Statement .uopDmrvEnter := shape_of_packWord rfl rfl (by decide)

theorem EncodedShape.uopDmrvStep : EncodedShape.Statement .uopDmrvStep := shape_of_packWord rfl rfl (by decide)

theorem EncodedShape.uopDmrdEnter : EncodedShape.Statement .uopDmrdEnter := shape_of_packWord rfl rfl (by decide)

theorem EncodedShape.uopDmrdStep : EncodedShape.Statement .uopDmrdStep := shape_of_packWord rfl rfl (by decide)

theorem EncodedShape.uopDstEnter : EncodedShape.Statement .uopDstEnter := shape_of_packWord rfl rfl (by decide)

theorem EncodedShape.uopDstvBit : EncodedShape.Statement .uopDstvBit := shape_of_packWord rfl rfl (by decide)

theorem EncodedShape.uopDstdBit : EncodedShape.Statement .uopDstdBit := shape_of_packWord rfl rfl (by decide)

theorem EncodedShape.uopDsthEnter : EncodedShape.Statement .uopDsthEnter := shape_of_packWord rfl rfl (by decide)

theorem EncodedShape.uopDsthBit : EncodedShape.Statement .uopDsthBit := shape_of_packWord rfl rfl (by decide)

theorem EncodedShape.uopDsthDecode : EncodedShape.Statement .uopDsthDecode := shape_of_packWord rfl rfl (by decide)

theorem EncodedShape.uopOrcTosearch : EncodedShape.Statement .uopOrcTosearch := shape_of_packWord rfl rfl (by decide)

theorem EncodedShape.uopOrcPush (v : Sample) : EncodedShape.Statement (.uopOrcPush v) :=
  shape_of_packWord rfl rfl (sampleOperand_lt v)

theorem EncodedShape.uopOrcReset : EncodedShape.Statement .uopOrcReset := shape_of_packWord rfl rfl (by decide)

theorem EncodedShape.rfmodC4fm : EncodedShape.Statement .rfmodC4fm := shape_of_packWord rfl rfl (by decide)

theorem EncodedShape.rfmodQpsk : EncodedShape.Statement .rfmodQpsk := shape_of_packWord rfl rfl (by decide)

theorem EncodedShape.rfmodGfsk : EncodedShape.Statement .rfmodGfsk := shape_of_packWord rfl rfl (by decide)

theorem EncodedShape.rfmodReserved : EncodedShape.Statement .rfmodReserved := shape_of_packWord rfl rfl (by decide)

theorem EncodedShape.wentDigit0 : EncodedShape.Statement .wentDigit0 := shape_of_packWord rfl rfl (by decide)

theorem EncodedShape.wentDigit1 : EncodedShape.Statement .wentDigit1 := shape_of_packWord rfl rfl (by decide)

theorem EncodedShape.wentDigit2 : EncodedShape.Statement .wentDigit2 := shape_of_packWord rfl rfl (by decide)

theorem EncodedShape.wentDigit3 : EncodedShape.Statement .wentDigit3 := shape_of_packWord rfl rfl (by decide)

theorem EncodedShape.wentE : EncodedShape.Statement .wentE := shape_of_packWord rfl rfl (by decide)

theorem EncodedShape.slotlightIdle : EncodedShape.Statement .slotlightIdle := shape_of_packWord rfl rfl (by decide)

theorem EncodedShape.slotlightData : EncodedShape.Statement .slotlightData := shape_of_packWord rfl rfl (by decide)

theorem EncodedShape.slotlightVoice : EncodedShape.Statement .slotlightVoice := shape_of_packWord rfl rfl (by decide)

theorem EncodedShape.slotlightReserved : EncodedShape.Statement .slotlightReserved := shape_of_packWord rfl rfl (by decide)

theorem EncodedShape.dibitRawAboveUmid : EncodedShape.Statement .dibitRawAboveUmid := shape_of_packWord rfl rfl (by decide)

theorem EncodedShape.dibitRawCenterToUmid : EncodedShape.Statement .dibitRawCenterToUmid := shape_of_packWord rfl rfl (by decide)

theorem EncodedShape.dibitRawLmidToCenter : EncodedShape.Statement .dibitRawLmidToCenter := shape_of_packWord rfl rfl (by decide)

theorem EncodedShape.dibitRawBelowLmid : EncodedShape.Statement .dibitRawBelowLmid := shape_of_packWord rfl rfl (by decide)

theorem EncodedShape.burstPiHeader : EncodedShape.Statement .burstPiHeader := shape_of_packWord rfl rfl (by decide)

theorem EncodedShape.burstVoiceLcHeader : EncodedShape.Statement .burstVoiceLcHeader := shape_of_packWord rfl rfl (by decide)

theorem EncodedShape.burstTerminatorLc : EncodedShape.Statement .burstTerminatorLc := shape_of_packWord rfl rfl (by decide)

theorem EncodedShape.burstCsbk : EncodedShape.Statement .burstCsbk := shape_of_packWord rfl rfl (by decide)

theorem EncodedShape.burstMbcHeader : EncodedShape.Statement .burstMbcHeader := shape_of_packWord rfl rfl (by decide)

theorem EncodedShape.burstMbcCont : EncodedShape.Statement .burstMbcCont := shape_of_packWord rfl rfl (by decide)

theorem EncodedShape.burstDataHeader : EncodedShape.Statement .burstDataHeader := shape_of_packWord rfl rfl (by decide)

theorem EncodedShape.burstRate12Data : EncodedShape.Statement .burstRate12Data := shape_of_packWord rfl rfl (by decide)

theorem EncodedShape.burstRate34Data : EncodedShape.Statement .burstRate34Data := shape_of_packWord rfl rfl (by decide)

theorem EncodedShape.burstIdle : EncodedShape.Statement .burstIdle := shape_of_packWord rfl rfl (by decide)

theorem EncodedShape.burstRate1Data : EncodedShape.Statement .burstRate1Data := shape_of_packWord rfl rfl (by decide)

theorem EncodedShape.condNosync : EncodedShape.Statement .condNosync := shape_of_packWord rfl rfl (by decide)

theorem EncodedShape.condCarrierloss : EncodedShape.Statement .condCarrierloss := shape_of_packWord rfl rfl (by decide)

theorem EncodedShape.condBitslip : EncodedShape.Statement .condBitslip := shape_of_packWord rfl rfl (by decide)

theorem EncodedShape.condSyncmissexceeded : EncodedShape.Statement .condSyncmissexceeded := shape_of_packWord rfl rfl (by decide)

theorem EncodedShape.condEmptywindow : EncodedShape.Statement .condEmptywindow := shape_of_packWord rfl rfl (by decide)

theorem EncodedShape.condFramedone : EncodedShape.Statement .condFramedone := shape_of_packWord rfl rfl (by decide)

theorem EncodedShape.condEndoftx : EncodedShape.Statement .condEndoftx := shape_of_packWord rfl rfl (by decide)

theorem EncodedShape.condForeignsync : EncodedShape.Statement .condForeignsync := shape_of_packWord rfl rfl (by decide)

end Laws
end Sys2Proof
end

