-- ==== Sys2Proof/Tests/Slice0.lean ====
section
/-! SUPPORT. Tests: the well-formedness smoke tests, the decoding of every row's word, one-step tests whose expected values
are those of spec/95_test_vectors.md or worked from the rule named, and for every statement with hypotheses a concrete
state and operands that meet them (`witness_<the statement's name>`). -/

-- The kernel evaluates whole steps here; one at a time keeps the memory small.
set_option Elab.async false

namespace Sys2Proof.Machine

/-- The next state of an outcome. -/
def nextOf : Host.Outcome State Fault Refusal → Option State
  | .next t => some t
  | _ => none

/-- What an outcome's next state holds. -/
def seen {α : Type} (f : State → α) (o : Host.Outcome State Fault Refusal) : Option α := (nextOf o).map f

/-- The state after reset, which most tests start from. -/
abbrev s0 : State := State.reset

/-- A state locked on a code in a protocol state. -/
def locked (fsm : BitVec 3) (code : Ftype) : State := { s0 with fsm := fsm, car.synctype := code }

/-- A state on the last sample of its period. -/
def atBoundary (s : State) : State := { s with str.sidx := 9 }

/-- The window with a text in its newest entries. -/
def windowOf (p : List Dibit) : Vector Went 32 :=
  Vector.ofFn fun i => ((List.replicate 32 wentE ++ p.map (BitVec.setWidth 3)).drop p.length).getD i.1 0

/-! ### Well-formedness: an offset that indexes past its array or table is refused by every check (R40, R155 to R164) -/

/-- The eight slot operations that index with their offset, each with the first offset past its space. -/
def illFormedSlots : List Instr :=
  [ .dmrvSlot1 0 12, .dmrvSlot2 0 36, .dmrvSlot3 0 36, .dmrvSlot4 0 24, .dmrvSlot5 0 18, .dmrvSlot6 0 36
  , .dmrvSlot7 0 12, .dmrvSlot9 0 24 ]

/-- The operations that write nothing run with any offset (R154). -/
theorem test_filler_runs_at_any_offset :
    seen (fun t => decide (t = s0)) (exec (.dmrvSlot0 3 54) s0) = some true ∧
      seen (fun t => decide (t = s0)) (exec (.dmrvSlot8 1 63) s0) = some true ∧
      decode 0xD80010 = .ok (.dmrvSlot0 0 54) := by decide +kernel
theorem test_wf_refuses_slot1 : (Instr.dmrvSlot1 0 12).wf = false := by decide
theorem test_wf_refuses_slot2 : (Instr.dmrvSlot2 0 36).wf = false := by decide
theorem test_wf_refuses_slot3 : (Instr.dmrvSlot3 0 36).wf = false := by decide
theorem test_wf_refuses_slot4 : (Instr.dmrvSlot4 0 24).wf = false := by decide
theorem test_wf_refuses_slot5 : (Instr.dmrvSlot5 0 18).wf = false := by decide
theorem test_wf_refuses_slot6 : (Instr.dmrvSlot6 0 36).wf = false := by decide
theorem test_wf_refuses_slot7 : (Instr.dmrvSlot7 0 12).wf = false := by decide
theorem test_wf_refuses_slot9 : (Instr.dmrvSlot9 0 24).wf = false := by decide

/-- The decoder refuses their words, by name. -/
theorem test_decode_refuses_ill_formed :
    illFormedSlots.all (fun i => decide (decode (encode i) = .error .illFormed)) = true := by decide +kernel

/-- Codes without a row, a format without codes, and bits above the operands are refused by name (R75). -/
theorem test_decode_refuses_reserved :
    decode 0x1C = .error (.reservedCode 0 0x1C) ∧ decode 0x32 = .error (.reservedCode 0 0x32) ∧
      decode 0x0114 = .error (.reservedCode 1 0x14) ∧ decode 0x0215 = .error (.reservedCode 2 0x15) ∧
      decode 0x0405 = .error (.reservedCode 4 5) ∧ decode 0x070B = .error (.reservedCode 7 0x0B) ∧
      decode 0x0800 = .error (.reservedCode 8 0) ∧ decode 0x0900 = .error (.unknownFormat 9) ∧
      decode 0x10201 = .error .strayBits := by decide +kernel

/-! ### Every row's word -/

/-- The words of format DISPATCH, written out from its table, with the operands of a row at boundary values. -/
def wordsDispatch : List (CommandWord × Instr) :=
  [ (0x0, .fsStep), (0xD60010, (.dmrvSlot0 2 53)), (0x2E0011, (.dmrvSlot1 2 11)), (0x8E0012, (.dmrvSlot2 2 35)),
    (0x460013, (.dmrvSlot3 2 17)), (0x5E0014, (.dmrvSlot4 2 23)), (0x460015, (.dmrvSlot5 2 17)),
    (0x8E0016, (.dmrvSlot6 2 35)), (0x2E0017, (.dmrvSlot7 2 11)), (0xD60018, (.dmrvSlot8 2 53)),
    (0x5E0019, (.dmrvSlot9 2 23)), (0xFE001A, (.dmrvSlot10 2 63)), (0xFE001B, (.dmrvTail 2 63)), (0x20, .dmrdStep),
    (0x30, .dstvBit), (0x31, .dstdBit), (0x40, .dsthBit), (0x50, .dispatchReserved5), (0x60, .dispatchReserved67) ]

theorem test_decode_dispatch : wordsDispatch.map (fun p => (decode p.1).toOption) = wordsDispatch.map (fun p => some p.2) := by
  decide +kernel

/-- The words of format FTYPE, written out from its table, with the operands of a row at boundary values. -/
def wordsFtype : List (CommandWord × Instr) :=
  [ (0x100, .ftypeP25p1), (0x101, .ftypeP25p1Inv), (0x102, .ftypeX2tdmaData), (0x103, .ftypeX2tdmaVoiceInv),
    (0x104, .ftypeX2tdmaVoice), (0x105, .ftypeX2tdmaDataInv), (0x106, .ftypeDstar), (0x107, .ftypeDstarInv),
    (0x108, .ftypeNxdnVoice), (0x109, .ftypeNxdnVoiceInv), (0x10A, .ftypeDmrData), (0x10B, .ftypeDmrVoiceInv),
    (0x10C, .ftypeDmrVoice), (0x10D, .ftypeDmrDataInv), (0x10E, .ftypeProvoice), (0x10F, .ftypeProvoiceInv),
    (0x110, .ftypeNxdnData), (0x111, .ftypeNxdnDataInv), (0x112, .ftypeDstarhd), (0x113, .ftypeDstarhdInv),
    (0x13F, .ftypeNone) ]

theorem test_decode_ftype : wordsFtype.map (fun p => (decode p.1).toOption) = wordsFtype.map (fun p => some p.2) := by
  decide +kernel

/-- The words of format UOP, written out from its table, with the operands of a row at boundary values. -/
def wordsUop : List (CommandWord × Instr) :=
  [ (0x180010200, (.uopStrPush 0x8001 true)), (0x201, .uopMajVote), (0xE0C00202, (.uopFsStep 0xE0C0)),
    (0x203, .uopFsNocarrier), (0x204, .uopDbtNext),
    (0x205 + 65536 * (2 ^ 659 + 1), (.uopDscXor660 (BitVec.twoPow 660 659 ||| 1))),
    (0x206 + 65536 * (2 ^ 659 + 2), (.uopDilPerm660 (BitVec.twoPow 660 659 ||| 2))),
    (0x207 + 65536 * 2 ^ 658, (.uopVitDecode (BitVec.twoPow 660 658))), (0x208, .uopDmrvEnter),
    (0x209, .uopDmrvStep), (0x20A, .uopDmrdEnter), (0x20B, .uopDmrdStep), (0x20C, .uopDstEnter),
    (0x20D, .uopDstvBit), (0x20E, .uopDstdBit), (0x20F, .uopDsthEnter), (0x210, .uopDsthBit),
    (0x211, .uopDsthDecode), (0x212, .uopOrcTosearch), (0x1F400213, (.uopOrcPush 0x1F40)), (0x214, .uopOrcReset) ]

theorem test_decode_uop : wordsUop.map (fun p => (decode p.1).toOption) = wordsUop.map (fun p => some p.2) := by
  decide +kernel

/-- The words of format RFMOD, written out from its table, with the operands of a row at boundary values. -/
def wordsRfmod : List (CommandWord × Instr) :=
  [ (0x300, .rfmodC4fm), (0x301, .rfmodQpsk), (0x302, .rfmodGfsk), (0x303, .rfmodReserved) ]

theorem test_decode_rfmod : wordsRfmod.map (fun p => (decode p.1).toOption) = wordsRfmod.map (fun p => some p.2) := by
  decide +kernel

/-- The words of format WENT, written out from its table, with the operands of a row at boundary values. -/
def wordsWent : List (CommandWord × Instr) :=
  [ (0x400, .wentDigit0), (0x401, .wentDigit1), (0x402, .wentDigit2), (0x403, .wentDigit3), (0x404, .wentE) ]

theorem test_decode_went : wordsWent.map (fun p => (decode p.1).toOption) = wordsWent.map (fun p => some p.2) := by
  decide +kernel

/-- The words of format SLOTLIGHT, written out from its table, with the operands of a row at boundary values. -/
def wordsSlotlight : List (CommandWord × Instr) :=
  [ (0x500, .slotlightIdle), (0x501, .slotlightData), (0x502, .slotlightVoice), (0x503, .slotlightReserved) ]

theorem test_decode_slotlight : wordsSlotlight.map (fun p => (decode p.1).toOption) = wordsSlotlight.map (fun p => some p.2) := by
  decide +kernel

/-- The words of format DIBIT, written out from its table, with the operands of a row at boundary values. -/
def wordsDibit : List (CommandWord × Instr) :=
  [ (0x601, .dibitRawAboveUmid), (0x600, .dibitRawCenterToUmid), (0x602, .dibitRawLmidToCenter),
    (0x603, .dibitRawBelowLmid) ]

theorem test_decode_dibit : wordsDibit.map (fun p => (decode p.1).toOption) = wordsDibit.map (fun p => some p.2) := by
  decide +kernel

/-- The words of format BURSTTYPE, written out from its table, with the operands of a row at boundary values. -/
def wordsBursttype : List (CommandWord × Instr) :=
  [ (0x700, .burstPiHeader), (0x701, .burstVoiceLcHeader), (0x702, .burstTerminatorLc), (0x703, .burstCsbk),
    (0x704, .burstMbcHeader), (0x705, .burstMbcCont), (0x706, .burstDataHeader), (0x707, .burstRate12Data),
    (0x708, .burstRate34Data), (0x709, .burstIdle), (0x70A, .burstRate1Data) ]

theorem test_decode_bursttype : wordsBursttype.map (fun p => (decode p.1).toOption) = wordsBursttype.map (fun p => some p.2) := by
  decide +kernel

/-- The words of format CONDITION, written out from its table, with the operands of a row at boundary values. -/
def wordsCondition : List (CommandWord × Instr) :=
  [ (0x801, .condNosync), (0x802, .condCarrierloss), (0x803, .condBitslip), (0x804, .condSyncmissexceeded),
    (0x805, .condEmptywindow), (0x806, .condFramedone), (0x807, .condEndoftx), (0x808, .condForeignsync) ]

theorem test_decode_condition : wordsCondition.map (fun p => (decode p.1).toOption) = wordsCondition.map (fun p => some p.2) := by
  decide +kernel
/-! ### Symbol timing and majority (V3, V6, V7, V9, R92) -/

/-- V3, the tenth sample: the mean -5 / 4 is truncated toward zero, the crossing at index 3 lengthens the next period. -/
theorem test_str_push_boundary :
    seen (fun t => (t.ret, t.str.plen, t.maj.maj, t.str.sidx, t.str.jitter))
      (exec (.uopStrPush 5 false)
        { s0 with str.sidx := 9, str.sum := -5, str.cnt := 4, str.jitter := 3, str.last := 5, maj.nneg := 4 }) =
      some (.symbol (some (-1)), 11, -1, 0, -1) := by decide +kernel

/-- V7 and V7b: the clamp holds a sample at `max` for C4FM only. -/
theorem test_str_push_clamps_c4fm :
    (clamp { s0.car with max := 11500, min := -11500 } true 20000,
      clamp { s0.car with max := 11500, min := -11500, rfMod := rfGfsk } true 20000) = (11500, 20000) := by decide

/-- R92: the next period by the index of the first crossing (C4FM) or extremum (QPSK), `SPS` 10, `CENTER` 4. -/
theorem test_nudge_table :
    ([-1, 0, 1, 2, 3, 4, 5, 6, 7, 8, 9, 10].map fun j => nudge decided rfC4fm j false) =
        [10, 10, 11, 11, 11, 11, 9, 9, 9, 9, 9, 10] ∧
      ([-1, 0, 1, 2, 3, 4, 5, 6, 7, 8, 9, 10].map fun j => nudge decided rfQpsk j false) =
        [10, 9, 9, 9, 9, 10, 11, 11, 11, 11, 11, 10] := by decide +kernel

/-- V6: three samples above `center` and one below give +1. -/
theorem test_maj_vote :
    seen (fun t => t.maj) (exec .uopMajVote { s0 with maj.npos := 3, maj.nneg := 1 }) =
      some { npos := 3, nneg := 1, maj := 1 } := by decide +kernel

/-! ### Frame sync (V20 to V23, V25c, R107, R111) -/

/-- V20: 26 flips choose GFSK, 27 QPSK, 18 C4FM. -/
theorem test_hypothesis :
    ([0, 18, 19, 26, 27, 100].map fun n =>
      let t := searchIntake 100 { s0 with str.numflips := n, fs.lastt := 23 }
      (t.car.rfMod, t.str.numflips, t.fs.lastt)) =
      [(0, 0, 0), (0, 0, 0), (2, 0, 0), (2, 0, 0), (1, 0, 0), (1, 0, 0)] := by decide +kernel

/-- V21 to V23: the levels, truncated toward zero. -/
theorem test_levels :
    ([(12000, -8000), (15001, -15000), (14999, -15000)].map fun (p : Sample × Sample) =>
      let c := levels { s0.car with max := p.1, min := p.2 }
      (c.center, c.umid, c.lmid)) =
      [((2000 : Sample), (8250 : Sample), (-4250 : Sample)), (0, 9375, -9375), (0, 9374, -9375)] := by decide +kernel

/-- P1, X4: the last symbol of the DMR base-station voice sync gives code 12 and recalibrates `max` to 11500. -/
theorem test_fs_step_dmr_voice :
    seen (fun t => (t.ret, t.car.max))
      (exec (.uopFsStep (s16 (-8000)))
        { s0 with
          fs.window := windowOf (dmrBsVoiceSyncPattern.take 23), fs.t := 23
          fs.lbuf := (Vector.replicate 24 (s16 8000)) }) =
      some (.sync (.sync 12), s16 11500) := by decide +kernel

/-- X7: the 1800th symbol without a match is the loss of carrier. -/
theorem test_fs_step_carrier_loss :
    seen (fun t => (t.ret, t.car.max, t.fs.synctestPos)) (exec (.uopFsStep 5) { s0 with fs.synctestPos := 1799 }) =
      some (.sync .noSync, s16 15000, 1800) := by decide +kernel

/-- V25c: the hint is dropped at the end of the 24th symbol. -/
theorem test_hint_expiry :
    (expireHint { s0 with fs.hint := 8, fs.tHint := 23 }).fs.hint = 8 ∧
      (expireHint { s0 with fs.hint := 8, fs.tHint := 24 }).fs.hint = -1 := by decide +kernel

/-- R108: the mute flag, a light and the levels after a loss of carrier. -/
theorem test_fs_nocarrier :
    seen (fun t => (t.dmr.mute, t.dmr.slotlight, t.car.umid))
      (exec .uopFsNocarrier { s0 with dmr.mute := true, dmr.slotlight := #v[2, 1], car.umid := 7 }) =
      some (false, #v[0, 0], s16 9375) := by decide +kernel

/-- R203, R206: the DISPATCH row `FS.STEP` on the 1800th symbol reports `NoSync` and restarts. -/
theorem test_dispatch_fs_step :
    seen (fun t => (t.events, t.fs.synctestPos, t.fsm)) (exec .fsStep { s0 with fs.synctestPos := 1799 }) =
      some ([.noSync], 0, 0) := by decide +kernel

/-! ### Dibits (V30 to V36) -/

/-- The levels of V30 to V36. -/
def dibitCar : CarRegs := { s0.car with center := 0, umid := 7187, lmid := -7187 }

theorem test_slice_p4 :
    ([7188, 7187, 1, 0, -1, -7187, -7188].map fun v => slice 12 dibitCar v) =
      [⟨1, 1⟩, ⟨0, 0⟩, ⟨0, 0⟩, ⟨2, 2⟩, ⟨2, 2⟩, ⟨2, 2⟩, ⟨3, 3⟩] := by decide +kernel
theorem test_slice_p4i :
    ([7188, 7187, 1, 0, -1, -7187, -7188].map fun v => slice 11 dibitCar v) =
      [⟨1, 3⟩, ⟨0, 2⟩, ⟨0, 2⟩, ⟨2, 0⟩, ⟨2, 0⟩, ⟨2, 0⟩, ⟨3, 1⟩] := by decide +kernel
theorem test_slice_p2 :
    ([7188, 7187, 1, 0, -1, -7187, -7188].map fun v => slice 6 dibitCar v) =
      [⟨1, 0⟩, ⟨1, 0⟩, ⟨1, 0⟩, ⟨3, 1⟩, ⟨3, 1⟩, ⟨3, 1⟩, ⟨3, 1⟩] := by decide +kernel
theorem test_slice_p2i :
    ([7188, 7187, 1, 0, -1, -7187, -7188].map fun v => slice 7 dibitCar v) =
      [⟨1, 1⟩, ⟨1, 1⟩, ⟨1, 1⟩, ⟨3, 0⟩, ⟨3, 0⟩, ⟨3, 0⟩, ⟨3, 0⟩] := by decide +kernel

/-- V30 for code 11: raw 1 pushed, 3 returned. -/
theorem test_dbt_next :
    seen (fun t => (t.ret, t.hist)) (exec .uopDbtNext { locked 1 11 with car := { dibitCar with synctype := 11 }, str.symbol := 7188 }) =
      some (.dibit 3, ⟨[(0, 1)], 1⟩) := by decide +kernel

/-! ### Descrambler, deinterleaver, Viterbi (V40 to V43, V50 to V56) -/

/-- R47: the default table is what the shift register generates. -/
theorem test_scramble_table :
    (List.range 720).map romScrDefault.testBit = scrGenerate 720 0x7F := by decide +kernel

/-- V40: the first 32 bits of the default table, most significant first. -/
theorem test_descramble :
    ((List.range 32).map fun i => (descramble romScrDefault 0).getLsbD i) =
      (List.range 32).map fun i => (0x0EF2C902#32).getMsbD i := by decide +kernel

/-- V42: ones at input positions 1, 28, 336, 659 go to 24, 1, 12, 647. -/
theorem test_deinterleave :
    deinterleave (BitVec.twoPow 660 1 ||| BitVec.twoPow 660 28 ||| BitVec.twoPow 660 336 ||| BitVec.twoPow 660 659) =
      (BitVec.twoPow 660 24 ||| BitVec.twoPow 660 1 ||| BitVec.twoPow 660 12 ||| BitVec.twoPow 660 647) := by
  decide +kernel

/-- Bits as received pairs. -/
def pairsText : List Nat → List (Bool × Bool) := List.map fun n => (n / 10 = 1, n % 10 = 1)

/-- V50, V51: a message, and the same with channel bit 3 flipped. -/
theorem test_viterbi_corrects :
    [[11, 10, 0, 1, 1, 11], [11, 11, 0, 1, 1, 11]].map (fun l => viterbi ⟨7, 5⟩ (pairsText l)) =
      List.replicate 2 [true, false, true, true, false, false] := by decide +kernel

/-- V52 and V54 to V56: no tail, and ties. -/
theorem test_viterbi_ties :
    [[11, 10, 0, 1], [11, 11, 11, 11, 11, 11], [1, 1, 1, 1, 1, 1], [10, 10, 10, 10, 10, 10]].map
        (fun l => viterbi ⟨7, 5⟩ (pairsText l)) =
      [[false, false, false, false], [true, false, false, true, false, false], [true, false, true, true, false, false],
        [true, true, true, true, false, false]] := by decide +kernel

/-! ### DMR (V60 to V65, R152, R153, R166, R168) -/

/-- V60: the slot index at every boundary. -/
theorem test_slot_index :
    ([0, 53, 54, 65, 66, 101, 102, 119, 120, 143, 144, 161, 162, 197, 198, 209, 210, 263, 264, 287, 288].map slotIndex) =
      [0, 0, 1, 1, 2, 2, 3, 3, 4, 4, 5, 5, 6, 6, 7, 7, 8, 8, 9, 9, 10] := by decide +kernel

/-- V61 and V62: where a dibit's two bits go. -/
theorem test_scatter :
    (scatter decided 0 0 3, scatter decided 0 35 2) =
      (BitVec.twoPow 96 23 ||| BitVec.twoPow 96 5, BitVec.twoPow 96 52) := by decide +kernel

/-- V63: dibits 0, 1, 2, 3 as sync characters. -/
theorem test_sync_characters : [0, 1, 2, 3].map syncChar = [1, 1, 3, 3] := by decide

/-- V64: the mobile-station voice constant with TDMA slot 1. -/
theorem test_sync_eval_ms_voice :
    (fun t : State => (t.dmr.mute, t.dmr.slotlight, t.dmr.msMode))
      (syncEval { s0 with
        dmr.syncf := Vector.ofFn fun i : Fin 24 => dmrMsVoiceSyncPattern.getD i.1 0
        dmr.currentslot := true, dmr.mute := true, dmr.slotlight := #v[1, 0] }) = (false, #v[1, 2], true) := by
  decide +kernel

/-- V65: a field that equals no constant writes nothing. -/
theorem test_sync_eval_no_match :
    syncEval { s0 with dmr.syncf := Vector.replicate 24 1, dmr.mute := true } =
      { s0 with dmr.syncf := Vector.replicate 24 1, dmr.mute := true } := by decide +kernel

/-- R155: the third CACH dibit gives the TDMA slot. -/
theorem test_slot1_currentslot :
    seen (fun t => (t.dmr.cach[2], t.dmr.currentslot)) (exec (.dmrvSlot1 2 2) s0) = some (2, true) := by decide +kernel
/-- R158: pair 0 clears frame 1 first. -/
theorem test_slot2_clears :
    seen (fun t => t.dmr.fr1) (exec (.dmrvSlot2 3 0) { s0 with dmr.fr1 := BitVec.allOnes 96 }) =
      some (BitVec.twoPow 96 23 ||| BitVec.twoPow 96 5) := by decide +kernel
/-- R159: pair 17 of frame 2 keeps the rest. -/
theorem test_slot3_keeps :
    seen (fun t => t.dmr.fr2) (exec (.dmrvSlot3 2 17) { s0 with dmr.fr2 := 1 }) = some (1 ||| BitVec.twoPow 96 26) := by
  decide +kernel
/-- R161: the last pair hands off frames 1 and 2 in order. -/
theorem test_slot5_hands_off :
    seen (fun t => t.events) (exec (.dmrvSlot5 0 17) { locked 1 12 with dmr.fr1 := 1 }) =
      some [.voiceFrame 12 1, .voiceFrame 12 0] := by decide +kernel
/-- R161: a muted slot hands off nothing. -/
theorem test_slot5_muted :
    seen (fun t => t.events) (exec (.dmrvSlot5 0 17) { locked 1 12 with dmr.mute := true }) = some [] := by
  decide +kernel
/-- R162: frame 3 is handed off at its last pair. -/
theorem test_slot6_hands_off :
    seen (fun t => t.events) (exec (.dmrvSlot6 2 35) (locked 1 11)) = some [.voiceFrame 11 (BitVec.twoPow 96 52)] := by
  decide +kernel
/-- R156. -/
theorem test_slot7_cach2 :
    seen (fun t => (t.dmr.cach2[11], t.dmr.currentslot)) (exec (.dmrvSlot7 3 11) s0) = some (3, false) := by
  decide +kernel
/-- R164: the second sync field, not compared with anything. -/
theorem test_slot9_sync2 :
    seen (fun t => (t.dmr.sync2[23], t.dmr.mute)) (exec (.dmrvSlot9 2 23) s0) = some (3, false) := by decide +kernel

/-- R152, P7: with nothing in the history, code 11 replays dibits 2. -/
theorem test_dmrv_enter :
    seen (fun t => (t.fsm, t.dmr.symbolIndex, t.dmr.cach, t.dmr.currentslot)) (exec .uopDmrvEnter (locked 0 11)) =
      some (1, 144, Vector.replicate 12 2, true) := by decide +kernel
/-- R171: the step from 1847 reaches 1848 and restarts the search. -/
theorem test_dmrv_step_ends :
    seen (fun t => (t.fsm, t.dmr.symbolIndex, t.car.synctype))
      (exec .uopDmrvStep { locked 1 12 with dmr.symbolIndex := 1847 }) = some (0, 1848, -1) := by decide +kernel
/-- V27: a data lock with nothing in the history and code 13. -/
theorem test_dmrd_enter :
    seen (fun t => (t.fsm, t.events, t.dmr.cach)) (exec .uopDmrdEnter (locked 0 13)) =
      some (2, [.dmrData true 0b1010 0b1010], Vector.replicate 12 2) := by decide +kernel
/-- P6: the 120th data symbol ends the span. -/
theorem test_dmrd_step_ends :
    seen (fun t => (t.fsm, t.dmr.dcount)) (exec .dmrdStep { locked 2 10 with dmr.dcount := 119 }) = some (0, 120) := by
  decide +kernel
theorem test_uop_dmrd_step :
    seen (fun t => (t.fsm, t.dmr.dcount, t.hist.wp)) (exec .uopDmrdStep (locked 2 10)) = some (2, 1, 1) := by
  decide +kernel

/-! ### D-STAR (V70 to V74, R178, R179) -/

/-- R180: the 72nd voice bit completes the frame. -/
theorem test_dstv_bit_hands_off :
    seen (fun t => (t.events, t.dst.dstPos)) (exec .dstvBit { locked 3 6 with dst.dstPos := 71 }) =
      some ([.voiceFrame 6 (BitVec.twoPow 96 85)], 72) := by decide +kernel
/-- R195: the bit that completes the sync constant in the voice segment is a bit-slip. -/
theorem test_dstv_bit_slips :
    seen (fun t => (t.events, t.dst.dstPos, t.dst.bitbuf))
      (exec .uopDstvBit { locked 3 6 with dst.dstPos := 5, dst.bitbuf := 0x555A34, str.symbol := 1 }) =
      some ([.bitSlip 5], 0, 0xAAB468) := by decide +kernel
/-- V70: the 24th bit of a sync segment clears the misses and reports nothing. -/
theorem test_dstd_bit_sync :
    seen (fun t => (t.events, t.dst.miss, t.dst.dstPos))
      (exec .dstdBit { locked 3 6 with
        dst.dstPos := 95, dst.bitbuf := 0x555A34, dst.miss := 2, str.symbol := 1, dst.slow := #v[0x55, 0x2D, 0x16] }) =
      some ([], 0, 0) := by decide +kernel
/-- R181: the first bit of a data segment clears the bytes and goes to bit 0 of the first. -/
theorem test_uop_dstd_bit_first :
    seen (fun t => (t.dst.slow, t.dst.dstPos))
      (exec .uopDstdBit { locked 3 6 with dst.dstPos := 72, dst.slow := #v[7, 7, 7] }) = some (#v[1, 0, 0], 73) := by
  decide +kernel
/-- V71 and V72: the first segment as received, a later one descrambled. -/
theorem test_slow_data :
    (evaluate { s0 with dst.slow := #v[0x30, 0x41, 0x42] }).events = [.slowData 0x30 0x41 0x42 false] ∧
      (evaluate { s0 with dst.slow := #v[0x33, 0x0B, 0xD6], dst.dfirst := false }).events =
        [.slowData 0x43 0x44 0x45 true] := by decide +kernel
/-- V73: the third miss restarts the search and keeps `miss`. -/
theorem test_sync_miss_exceeded :
    (fun t : State => (t.fsm, t.dst.miss, t.car.synctype))
      (evaluate { locked 3 6 with dst.miss := 2, dst.dphase := 20, dst.dfirst := false }) = (0, 3, -1) := by
  decide +kernel
/-- V74: decoded bits 24 to 31 are byte 3, least significant first. -/
theorem test_header_packing : (packHeader (0b01000100#330 <<< 24))[3] = 0x44 := by decide +kernel
theorem test_dst_enter :
    seen (fun t => (t.fsm, t.dst.dfirst, t.dst.miss)) (exec .uopDstEnter { s0 with dst.dfirst := false, dst.miss := 3 }) =
      some (3, true, 0) := by decide +kernel
theorem test_dsth_enter :
    seen (fun t => (t.fsm, t.hdr.hdCnt)) (exec .uopDsthEnter { s0 with hdr.hdCnt := 660 }) = some (4, 0) := by
  decide +kernel
theorem test_dsth_bit :
    seen (fun t => (t.fsm, t.hdr.hdCnt, t.hist)) (exec .dsthBit { locked 4 18 with hdr.hdCnt := 658 }) =
      some (4, 659, ⟨[(0, 3)], 1⟩) := by decide +kernel
theorem test_uop_dsth_bit :
    seen (fun t => (t.hdr.hdCnt, t.hist)) (exec .uopDsthBit { locked 4 19 with str.symbol := 1 }) =
      some (1, ⟨[(0, 1)], 1⟩) := by decide +kernel

/-! ### The orchestrator, the code rows and the conditions -/

/-- R200: the sample that ends a period of a data lock is one symbol of the span. -/
theorem test_orc_push_runs_the_row :
    seen (fun t => (t.str.symbol, t.dmr.dcount, t.hist)) (exec (.uopOrcPush 400) (atBoundary { locked 2 10 with str.sum := 400, str.cnt := 4 })) =
      some (100, 1, ⟨[], 1⟩) := by decide +kernel
/-- R58: a sample inside a period runs nothing but `STR.PUSH`. -/
theorem test_orc_push_inside :
    seen (fun t => (t.str.sidx, t.hist, t.events)) (exec (.uopOrcPush 400) (locked 2 10)) = some (1, ⟨[], 0⟩, []) := by
  decide +kernel
/-- R235: reset forgets the lock. -/
theorem test_orc_reset :
    seen (fun t => (t.fsm, t.car.lastsynctype)) (exec .uopOrcReset { locked 3 6 with car.lastsynctype := 6 }) =
      some (0, -1) := by decide +kernel
theorem test_orc_tosearch :
    seen (fun t => (t.fsm, t.fs.t, t.car.lastsynctype, t.fs.window[31]))
      (exec .uopOrcTosearch { locked 3 6 with fs.t := 24, car.lastsynctype := 6, fs.window := Vector.replicate 32 1 }) =
      some (0, 0, 6, 4) := by decide +kernel
/-- V26: a code without a decoder is reported and the search restarted. -/
theorem test_ftype_foreign :
    seen (fun t => (t.events, t.fsm, t.car.synctype, t.car.lastsynctype, t.car.carrier)) (exec .ftypeP25p1 s0) =
      some ([.sync 0], 0, -1, 0, true) := by decide +kernel
theorem test_ftype_dstar :
    seen (fun t => (t.events, t.fsm, t.car.synctype)) (exec .ftypeDstarInv s0) = some ([.sync 7], 3, 7) := by
  decide +kernel
theorem test_rfmod_disabled :
    seen (fun t => (t.car.rfMod, t.str.numflips))
      (exec .rfmodQpsk { s0 with cfg.modQpsk := false, cfgReset.modQpsk := false, str.numflips := 40 }) = some (0, 0) := by
  decide +kernel
theorem test_went_digit :
    seen (fun t => (t.fs.window[31], t.fs.window[30], t.fs.t)) (exec .wentDigit3 s0) = some (3, 4, 1) := by decide +kernel
theorem test_slotlight_voice :
    seen (fun t => t.dmr.slotlight) (exec .slotlightVoice { s0 with dmr.currentslot := true }) = some #v[0, 2] := by
  decide +kernel
theorem test_dibit_below_lmid :
    seen (fun t => t.hist) (exec .dibitRawBelowLmid s0) = some ⟨[(0, 3)], 1⟩ := by decide +kernel
theorem test_burst_csbk : seen (fun t => t.dmr.bursttype) (exec .burstCsbk s0) = some 3 := by decide +kernel
/-- R68: the names of burst types, `Unknown` from 11 on. -/
theorem test_burst_names :
    [0, 3, 9, 10, 11, 15].map (burstName decided) =
      [some .piHeader, some .csbk, some .idle, some .rate1Data, none, none] := by decide +kernel
/-- R72: the fields of a header. -/
theorem test_header_fields :
    (fun f : HeaderFields => (f.rpt2.length, f.suffix, f.fcs.length))
      (headerFields decided (tabulate 41 fun i => BitVec.ofNat 8 i)) = (8, [35, 36, 37, 38], 2) := by decide +kernel
/-- R72 with another offset for the suffix (93_implementation_defined.md G7). -/
theorem test_header_fields_moved :
    (headerFields { decided with headerOffsets := ⟨3, 11, 19, 27, 37, 35⟩ } (tabulate 41 fun i => BitVec.ofNat 8 i)).fcs =
      [35, 36] := by decide +kernel
/-- R155 with another slot bit (G10): bit 0 of dibit 3. -/
theorem test_slot_bit_moved :
    seen (fun t => t.dmr.currentslot)
      (exec (.dmrvSlot1 1 3) { s0 with
        cfg.cachSlotDibit := 3, cfg.cachSlotBit := 0, cfgReset.cachSlotDibit := 3, cfgReset.cachSlotBit := 0 }) =
      some true := by decide +kernel
/-- R135: the transition table's outputs, inputs 0 then 1, states 0 to 3. -/
theorem test_code_table :
    [false, true].map (fun u => [0, 1, 2, 3].map fun p => (codeG1 ⟨7, 5⟩ u p, codeG2 ⟨7, 5⟩ u p)) =
      [[(false, false), (true, false), (true, true), (false, true)],
        [(true, true), (false, true), (false, false), (true, false)]] := by decide +kernel
/-- R53: a scramble table changed without RESET is refused (93_implementation_defined.md U4). -/
theorem test_changed_table_refused :
    (nextOf (exec (.uopDscXor660 0) { s0 with cfg.romScr := 1 })).isNone = true ∧
      guardOf { s0 with cfg.romScr := 1 } = some .configChanged := by decide +kernel
/-- R46, P4, U8: an enabled protocol whose rows, or one row, the table lacks is refused; rows of a protocol that is not
enabled may be left out. -/
theorem test_missing_rows_refused :
    let without (p : SyncRow → Bool) (c : Config) : Config := { c with romSync := c.romSync.filter fun r => !p r }
    (configLegal (without (·.proto == .nxdn) { decided with enNxdn := true }),
      configLegal (without (·.name == .dstarHd) decided), configLegal (without (·.proto == .nxdn) decided)) =
      (false, false, true) := by decide +kernel
/-- R66: the counterpart of a pattern swaps 1 and 3, and 0 and 2. -/
theorem test_inverse_pattern : inversePattern (digits [1, 3, 0, 2]) = digits [3, 1, 2, 0] := by decide
/-- R50: a constant of `ROM.DMRSYNC` that differs from its row of `ROM.SYNC`, or both with a data constant that is not the
inverse, is refused. -/
theorem test_dmr_constants :
    (configLegal decided, configLegal { decided with bsVoice := decided.msVoice, bsData := decided.msData },
      configLegal { decided with
        bsData := decided.msData
        romSync := decided.romSync.map fun r =>
          if r.name = .dmrBsDataSync then { r with pattern := some decided.msData } else r
        distinctPatterns := false }) = (true, false, false) := by decide +kernel
/-- A table with the OPEN X2-TDMA rows supplied, all with the pattern of a DMR row. -/
def equalRows : Config := { decided with
  enX2tdma := true
  romSync := decided.romSync.map fun r =>
    if r.proto = .x2tdma then { r with pattern := some dmrBsVoiceSyncPattern } else r }
/-- U12 refuses it; with the reading of R113 it is legal, and the earlier row wins (R102). -/
theorem test_equal_patterns :
    configLegal equalRows = false ∧ configLegal { equalRows with distinctPatterns := false } = true ∧
      (firstMatch { State.resetWith { equalRows with distinctPatterns := false } [] with
        fs.window := windowOf dmrBsVoiceSyncPattern, fs.t := 24 }).map (·.code0) = some 2 := by decide +kernel
theorem test_cond_carrier_loss :
    seen (fun t => (t.events, t.fsm, t.car.max, t.car.lastsynctype))
      (exec .condCarrierloss { locked 3 6 with car.max := 9, car.lastsynctype := 6 }) =
      some ([.noSync], 0, s16 15000, -1) := by decide +kernel
theorem test_cond_bit_slip :
    seen (fun t => (t.events, t.dst.dstPos, t.fsm)) (exec .condBitslip { locked 3 6 with dst.dstPos := 71 }) =
      some ([.bitSlip 71], 0, 3) := by decide +kernel
theorem test_cond_end_of_tx :
    seen (fun t => (t.events, t.fsm)) (exec .condEndoftx (locked 3 6)) = some ([.endOfTx], 0) := by decide +kernel
/-- R53, R75: a changed configuration and a reserved code in the state are refused. -/
theorem test_refusals :
    (guardOf { s0 with cfg.sps := 11 }, guardOf { s0 with fsm := 5 }, guardOf { s0 with car.rfMod := 3 },
      guardOf { s0 with cfg.center := 9 }) =
      (some .configChanged, some .reservedFsm, some .reservedRfMod, some .illegalConfig) := by decide +kernel
/-- A write to the history drops an entry that becomes what an unlisted one reads as. -/
theorem test_history_canonical :
    histWrite (histWrite (histWrite [] 5 1) 2 3) 5 0 = [(2, 3)] := by decide

/-! ### Witnesses: states and operands that meet the hypotheses of the statements -/

/-- A configuration with the NXDN test rows of V25. -/
def nxdnConfig : Config := { decided with
  enNxdn := true
  romSync := decided.romSync.filterMap fun r =>
    if r.code0 = 8 then some { r with pattern := some (digits [3,1,3,1,3,3,1,1,3,1,3,1,1,1,1,3,3,3]) }
    else if r.code0 = 9 then some { r with pattern := some (digits [1,3,1,3,1,1,3,3,1,3,1,3,3,3,3,1,1,1]) }
    else if r.proto = .nxdn then none
    else some r }

/-- A state under the NXDN test rows, one symbol before the voice row matches. -/
def nxdnState : State := { State.resetWith nxdnConfig [] with
  fs.window := windowOf (digits [3,1,3,1,3,3,1,1,3,1,3,1,1,1,1,3,3]), fs.t := 17 }

/-- A state one symbol before the DMR base-station voice sync matches. -/
def dmrState : State := { s0 with fs.window := windowOf (dmrBsVoiceSyncPattern.take 23), fs.t := 23 }

theorem ready_s0 : Ready s0 := by decide +kernel

theorem witness_DecodeInvertsEncode : (Instr.dmrvSlot0 3 53).WellFormed := by decide
theorem witness_DecodedIsWellFormedAndReencodes :
    decode 0xE0C00213 = .ok (.uopOrcPush 0xE0C0) ∧ decode 0x0F = .ok .fsStep := by decide +kernel
theorem witness_SlotIndexAndOffsetFollowTheTable : 287 < 288 := by decide

/-- Each clause of the dispatch word, at the boundary of its range. -/
theorem witness_DispatchWordSelectsItsRow :
    (s0.fsm = 0) ∧
    (let s := { locked 1 12 with dmr.symbolIndex := 1728 }
     s.fsm = 1 ∧ s.cfg.dmrVoiceBlocks ≤ s.dmr.symbolIndex.toNat / 288) ∧
    (let s := { locked 1 12 with dmr.symbolIndex := 1727 }
     s.fsm = 1 ∧ s.dmr.symbolIndex.toNat / 288 < s.cfg.dmrVoiceBlocks) ∧
    (locked 2 10).fsm = 2 ∧
    (let s := { locked 3 6 with dst.dstPos := 71 }; s.fsm = 3 ∧ s.dst.dstPos.toNat < 72) ∧
    (let s := { locked 3 6 with dst.dstPos := 72 }; s.fsm = 3 ∧ 72 ≤ s.dst.dstPos.toNat) ∧
    (locked 4 18).fsm = 4 ∧ (locked 5 0).fsm = 5 ∧ 6 ≤ (locked 6 0).fsm.toNat := by decide +kernel

theorem witness_ReservedRowsAreRefused :
    Ready s0 ∧ 12 ≤ (12#6).toNat ∧ 18 ≤ (18#6).toNat ∧ 24 ≤ (24#6).toNat ∧ 36 ≤ (36#6).toNat := by decide +kernel

theorem witness_StepRunsTheDecodedInstruction :
    (let s := { s0 with input := [0x0201, 0x0214] }; s.input = 0x0201 :: [0x0214] ∧ decode 0x0201 = .ok .uopMajVote) ∧
    (let s := { s0 with input := [0x0900] }; s.input = [0x0900] ∧ decode 0x0900 = .error (.unknownFormat 9)) ∧
    s0.input = [] := by decide +kernel

theorem witness_OnlyReadyStatesRun : ¬ Ready { s0 with fsm := 5 } ∧ ¬ Ready { s0 with cfg.sps := 11 } := by
  decide +kernel
theorem witness_ResetLeavesTheTableValues : configLegal (locked 3 6).cfg = true := by decide +kernel
theorem witness_CarrierLossIsAPartialReset : Ready (locked 3 6) := by decide +kernel
theorem witness_NumberedRegistersHaveTheirFields : configLegal decided = true := by decide +kernel

/-- The reset state with one operation issued, for the invariants. -/
def issued : State := State.resetWith decided [0x1F400213]

theorem issued_histOk : HistOk issued where
  wf := rfl
  inside := fun p hp => absurd hp (by decide +revert)
  pointer := by decide +kernel

theorem issued_inv : Inv issued where
  legal := by decide +kernel
  fixed := rfl
  hist := issued_histOk
  codes := by
    refine ⟨?_, ?_, ?_, ?_, ?_, ?_, ?_, ?_⟩ <;> first | (unfold ftypeOk; decide +kernel) | decide +kernel
  period := ⟨.inr (.inl rfl), by decide +kernel⟩
  levels := by decide +kernel

theorem issued_hostInv : HostInv issued where
  inv := issued_inv
  lock := by decide +kernel
  count := by decide +kernel
  dstar := fun h => absurd h (by decide +kernel)
  header := fun h => absurd h (by decide +kernel)

theorem witness_EveryStepKeepsTheInvariant : Inv issued ∧ (nextOf (step issued)).isSome = true :=
  ⟨issued_inv, by decide +kernel⟩
theorem witness_HostOperationsKeepTheHostInvariant :
    HostIssued (.uopOrcPush 8000) ∧ HostIssued .uopOrcReset ∧ HostInv issued ∧
      (nextOf (exec (.uopOrcPush 8000) issued)).isSome = true ∧ (nextOf (exec .uopOrcReset issued)).isSome = true :=
  ⟨.inr ⟨_, rfl⟩, .inl rfl, issued_hostInv, by decide +kernel, by decide +kernel⟩
theorem witness_HostOperationsAreTotal : HostIssued (.uopOrcPush (-32768)) ∧ HostInv issued :=
  ⟨.inr ⟨_, rfl⟩, issued_hostInv⟩

/-- The state before the last sample of the first period, four samples averaged. -/
def lastSample : State := { issued with str.sidx := 9, str.cnt := 4 }

theorem witness_EmptyWindowIsUnreachable : HostInv lastSample ∧ lastSample.str.sidx.toNat + 1 = lastSample.str.plen.toNat :=
  ⟨{ inv :=
      { legal := issued_inv.legal
        fixed := rfl
        hist := ⟨rfl, issued_histOk.inside, issued_histOk.pointer⟩
        codes := ⟨issued_inv.codes.fsm, issued_inv.codes.rfMod, issued_inv.codes.window, issued_inv.codes.light,
          issued_inv.codes.synctype, issued_inv.codes.lastsynctype, issued_inv.codes.hint, issued_inv.codes.lidx⟩
        period := ⟨.inr (.inl rfl), by decide +kernel⟩
        levels := issued_inv.levels }
     lock := issued_hostInv.lock
     count := by decide +kernel
     dstar := fun h => absurd h (by decide +kernel)
     header := fun h => absurd h (by decide +kernel) }, by decide +kernel⟩

theorem witness_PushRunsTimingThenTheSelectedRow :
    Ready s0 ∧ seen (fun u => u.ret) (exec (.uopStrPush 5 false) { s0 with events := [] }) = some (.symbol none) ∧
      Ready (atBoundary (locked 4 19)) ∧
      seen (fun u => u.ret) (exec (.uopStrPush 5 true) { atBoundary (locked 4 19) with events := [] }) =
        some (.symbol (some 0)) := by decide +kernel

theorem witness_OneHistoryEntryPerSymbol :
    (nextOf (exec (.uopOrcPush 5) s0)).isSome = true ∧ (strPush 5 (haveSync s0) s0).2 = none ∧
      (nextOf (exec (.uopOrcPush 5) (atBoundary (locked 2 13)))).isSome = true ∧
      (strPush 5 true (atBoundary (locked 2 13))).2 ≠ none := by decide +kernel

/-- Each clause of the transition relation: search without and with a sync, and each protocol state going on and
ending. -/
theorem witness_FsmFollowsTheTransitionTable :
    (nextOf (exec (.uopOrcPush 5) s0)).isSome = true ∧
    (let s := atBoundary { dmrState with str.sum := -8000, str.cnt := 1 }
     (strPush (-8000) (haveSync s) s).2 ≠ none ∧
       seen (fun t => t.fsm) (exec (.uopOrcPush (-8000)) s) = some 1) ∧
    (let s := atBoundary { s0 with fs.synctestPos := 1799 }
     seen (fun t => t.fsm) (exec (.uopOrcPush 0) s) = some 0) ∧
    seen (fun t => t.fsm) (exec (.uopOrcPush 0) (atBoundary { locked 1 12 with dmr.symbolIndex := 1846 })) = some 1 ∧
    seen (fun t => t.fsm) (exec (.uopOrcPush 0) (atBoundary { locked 1 12 with dmr.symbolIndex := 1847 })) = some 0 ∧
    seen (fun t => t.fsm) (exec (.uopOrcPush 0) (atBoundary { locked 2 10 with dmr.dcount := 118 })) = some 2 ∧
    seen (fun t => t.fsm) (exec (.uopOrcPush 0) (atBoundary { locked 2 10 with dmr.dcount := 119 })) = some 0 ∧
    seen (fun t => t.fsm) (exec (.uopOrcPush 0) (atBoundary { locked 3 6 with dst.dstPos := 94 })) = some 3 ∧
    seen (fun t => t.fsm)
      (exec (.uopOrcPush 1) (atBoundary { locked 3 6 with
        dst.dstPos := 95, dst.bitbuf := 0x555555, str.sum := 99, str.cnt := 1 })) = some 0 ∧
    seen (fun t => t.fsm) (exec (.uopOrcPush 0) (atBoundary { locked 4 18 with hdr.hdCnt := 658 })) = some 4 ∧
    seen (fun t => t.fsm) (exec (.uopOrcPush 0) (atBoundary { locked 4 18 with hdr.hdCnt := 659 })) = some 0 := by
  decide +kernel

/-- Each clause at the last number that fits and the first that does not. -/
theorem witness_NumbersThatFitAreWrittenExactly :
    (511 < 2 ^ 9 ∧ 2 ^ 9 ≤ 512) ∧ (0 < 16 ∧ -(2 ^ (16 - 1)) ≤ (-32768 : Int) ∧ (32767 : Int) < 2 ^ (16 - 1)) ∧
      ((-32769 : Int) < -(2 ^ (16 - 1)) ∧ (2 : Int) ^ (16 - 1) ≤ 32768) ∧ (126#7).toNat + 1 < 2 ^ 7 := by decide +kernel

theorem witness_StatusOnlyRegistersInfluenceNothing :
    (let s := { s0 with maj.maj := 1, car.carrier := true, dmr.msMode := true, dmr.slotlight := #v[2, 1] }
     eraseStatus s0 = eraseStatus s ∧ ∀ e ∈ s.dmr.slotlight.toList, e ≠ 3) ∧
      (nextOf (exec (.uopOrcPush 5) s0)).isSome = true := by decide +kernel

/-- Inside a period and at its boundary, at the last index of each. -/
theorem witness_StrPushFollowsItsSubRules :
    (let s := { s0 with str.sidx := 8 }
     Ready s ∧ s.str.sidx.toNat < s.str.plen.toNat ∧ s.str.sidx.toNat + 1 < s.str.plen.toNat) ∧
    (let s := { s0 with str.sidx := 9, car.rfMod := 1 }
     Ready s ∧ s.str.sidx.toNat < s.str.plen.toNat ∧ s.str.sidx.toNat + 1 = s.str.plen.toNat) := by decide +kernel

theorem witness_MajorityVoteIsTheSignMajority : Ready { s0 with maj.npos := 3 } := by decide +kernel

theorem witness_PeriodSymbolIsTheWindowMean :
    Ready { s0 with str.plen := 9 } ∧ s0.str.sidx = 0 ∧ s0.str.sum = 0 ∧ s0.str.cnt = 0 ∧
      (List.replicate 9 (s16 7)).length = ({ s0 with str.plen := 9 } : State).str.plen.toNat ∧
      s0.cfg.sps ≤ (List.replicate 9 (s16 7)).length + 1 ∧
      (windowSamples (winOf s0.cfg 0) 0 ((List.replicate 9 (s16 7)).map (clamp s0.car false))).all
        (fun x => decide ((7 : Int) ≤ x.toInt ∧ x.toInt ≤ 7)) = true := by decide +kernel

theorem witness_FirstMatchIsTheFirstEnabledMatchingRow :
    configLegal nxdnConfig = true ∧ configLegal dmrState.cfg = true := by decide +kernel

/-- Each way of `FS.STEP`: no match, a confirmed match, a confirmed hint, a pending hit. -/
theorem witness_FsStepGoesOneOfThreeWays :
    (Ready s0 ∧ firstMatch (searchIntake 5 s0) = none) ∧
    (Ready dmrState ∧ (firstMatch (searchIntake (-5) dmrState)).map (·.twoHit) = some false) ∧
    (let s := { nxdnState with fs.hint := 16 }
     Ready s ∧ (firstMatch (searchIntake (-5) s)).map (·.twoHit) = some true ∧
       (searchIntake (-5) s).fs.hint ∈ ([8, 16] : List Ftype)) ∧
    (Ready nxdnState ∧ (firstMatch (searchIntake (-5) nxdnState)).map (fun r => (r.twoHit, r.code0)) = some (true, 8) ∧
      (searchIntake (-5) nxdnState).fs.hint ∉ ([8, 16] : List Ftype)) := by decide +kernel

theorem witness_SearchMissExpiresTheHintAndWatchesTheCarrier :
    (let s := { s0 with fs.synctestPos := 1799 }; s.cfg.carrierTimeout ≤ (countUp .synctestPos s.fs.synctestPos).toNat) ∧
      (let s := { s0 with fs.synctestPos := 1798 }; (countUp .synctestPos s.fs.synctestPos).toNat < s.cfg.carrierTimeout) := by
  decide +kernel

/-- In the default table, whose eight rows before it have other patterns. -/
theorem witness_DmrBaseStationVoicePatternGivesItsCode :
    Ready dmrState ∧ dmrState.cfg.enDmr = true ∧
      dmrState.cfg.romSync = romSyncDefault.take 8 ++
        ⟨.dmrBsVoiceSync, .dmr, 24, some dmrBsVoiceSyncPattern, 12, 13, false⟩ :: romSyncDefault.drop 9 ∧
      (∀ q ∈ romSyncDefault.take 8,
        protocolEnabled dmrState.cfg q.proto = true → q.len = 24 ∧ q.pattern ≠ some dmrBsVoiceSyncPattern) ∧
      24 ≤ (searchIntake (-5) dmrState).fs.t.toNat ∧
      (searchIntake (-5) dmrState).fs.window.toList.drop 8 = dmrBsVoiceSyncPattern.map (BitVec.setWidth 3) := by
  decide +kernel

theorem witness_NoPatternMatchesBeforeItsLength :
    configLegal s0.cfg = true ∧ (∃ r ∈ s0.cfg.romSync, r.pattern ≠ none ∧ (List.replicate 23 (s16 5)).length < r.len) := by
  decide +kernel

theorem witness_NoCarrierRestoresTheDefaults : Ready { s0 with car.max := 9, dmr.slotlight := #v[2, 1] } := by
  decide +kernel
theorem witness_ToSearchRestartsTheSearch : Ready (locked 2 10) ∧ levels (locked 2 10).car = (locked 2 10).car := by
  decide +kernel

/-- Each reaction of the search row: none, a loss of carrier, a lock. -/
theorem witness_SearchRowReactsToItsResult :
    Ready s0 ∧ seen (fun u => u.ret) (exec (.uopFsStep s0.str.symbol) s0) = some (.sync .none) ∧
      seen (fun u => u.ret) (exec (.uopFsStep 0) { s0 with fs.synctestPos := 1799 }) = some (.sync .noSync) ∧
      (Instr.ftypeDmrVoice, (12 : Ftype)) ∈ ftypeCodes ∧
      seen (fun u => u.ret) (exec (.uopFsStep 0) dmrState) = some (.sync (.sync 12)) := by decide +kernel

/-- Each group of codes, and the refused ones at their boundaries. -/
theorem witness_DbtNextSlicesByFrameType :
    Ready s0 ∧ s0.car.synctype.toInt = -1 ∧ 19 < (locked 1 20).car.synctype.toInt ∧
      (locked 1 (-2)).car.synctype.toInt < -1 ∧ (locked 3 18).car.synctype.toInt ∈ ([6, 14, 18] : List Int) ∧
      (locked 3 19).car.synctype.toInt ∈ ([7, 15, 19] : List Int) ∧
      (locked 1 1).car.synctype.toInt ∈ ([1, 3, 5, 9, 11, 13] : List Int) ∧
      (locked 1 17).car.synctype.toInt ∈ ([0, 2, 4, 8, 10, 12, 16, 17] : List Int) := by decide +kernel

theorem witness_PolarityOfSignalAndLockCancel :
    (let c := dibitCar; let v : Sample := 7188
     c.center = 0 ∧ c.lmid.toInt = -c.umid.toInt ∧ v.toInt ≠ 0 ∧ v.toInt ≠ c.umid.toInt ∧ v.toInt ≠ c.lmid.toInt ∧
       v.toInt ≠ -32768) := by decide +kernel

theorem witness_LookBackFindsThePushedDibits :
    HistOk issued ∧ 1 ≤ 660 ∧ 660 + 1 ≤ issued.cfg.histCap ∧ issued.cfg.histCap < 899801 :=
  ⟨issued_histOk, by decide, by decide +kernel, by decide +kernel⟩

theorem witness_DescrambleTwiceIsTheIdentity : Ready (locked 4 18) := by decide +kernel
theorem witness_DeinterleaveIsTheStridePermutation : 659 < 660 ∧ Ready (locked 4 19) := by decide +kernel
theorem witness_DecodedTailIsZero : Ready (locked 4 18) ∧ 329 < 330 ∧ 3 < 4 := by decide +kernel

theorem witness_CachAndFillerSlots :
    Ready s0 ∧ (11#6).toNat < 12 ∧ (2#6).toNat < 12 := by decide +kernel
theorem witness_ScatterWritesItsTwoBits : configLegal decided = true ∧ 35 < 36 := by decide +kernel
theorem witness_AmbeSlotsScatterAndHandOff :
    Ready (locked 1 12) ∧ ftypeOk (locked 1 12).car.synctype ∧ (17#6).toNat < 18 ∧ 18 ≤ (18#6).toNat ∧
      (35#6).toNat < 36 :=
  ⟨by decide +kernel, ⟨by decide +kernel, by decide +kernel⟩, by decide, by decide, by decide⟩
theorem witness_SyncFieldDecidesMuteLightAndMode :
    Ready s0 ∧ (23#6).toNat < 24 ∧ (22#6).toNat ≠ 23 ∧ (23#6).toNat = 23 := by decide +kernel
theorem witness_VoiceEntryReplaysTheHistory :
    (Ready (locked 0 11) ∧ ftypeOk (locked 0 11).car.synctype ∧ 0 < (locked 0 11).cfg.dmrVoiceBlocks) ∧
      let c := { decided with dmrVoiceBlocks := 0, dmrVoiceEnd := 288 }
      Ready (State.resetWith c []) ∧ (State.resetWith c []).cfg.dmrVoiceBlocks = 0 :=
  ⟨⟨by decide +kernel, ⟨by decide +kernel, by decide +kernel⟩, by decide +kernel⟩, by decide +kernel, rfl⟩
theorem witness_VoiceStepRunsTheSlotOfItsPosition :
    let s := { locked 1 12 with dmr.symbolIndex := 161 }
    Ready s ∧ 0 ≤ s.car.synctype.toInt ∧ s.car.synctype.toInt ≤ 19 := by decide +kernel
theorem witness_DataEntryReadsTheFields : Ready (locked 0 13) ∧ ftypeOk (locked 0 13).car.synctype :=
  ⟨by decide +kernel, by decide +kernel, by decide +kernel⟩
theorem witness_DataStepCountsItsSpan :
    Ready (locked 2 13) ∧ 0 ≤ (locked 2 13).car.synctype.toInt ∧ (locked 2 13).car.synctype.toInt ≤ 19 := by
  decide +kernel
theorem witness_DStarEntriesClearTheirRegisters : Ready (locked 0 7) := by decide +kernel
theorem witness_VoiceBitScattersOrSlips :
    let s := { locked 3 7 with dst.dstPos := 71 }
    Ready s ∧ 0 ≤ s.car.synctype.toInt ∧ s.car.synctype.toInt ≤ 19 ∧ s.dst.dstPos.toNat < 72 := by decide +kernel
theorem witness_DataBitFillsTheSlowBytes :
    let s := { locked 3 7 with dst.dstPos := 72 }
    Ready s ∧ 0 ≤ s.car.synctype.toInt ∧ s.car.synctype.toInt ≤ 19 ∧ 72 ≤ s.dst.dstPos.toNat := by decide +kernel
theorem witness_SegmentEvaluationFollowsItsRules :
    ({ s0 with dst.bitbuf := 0xAAB468 } : State).dst.bitbuf = s0.cfg.dstarSync24 ∧
      ({ s0 with dst.bitbuf := 0xAAAAAA } : State).dst.bitbuf = s0.cfg.dstarEot24 ∧
      s0.cfg.dstarEot24 ≠ s0.cfg.dstarSync24 ∧ s0.dst.bitbuf ≠ s0.cfg.dstarSync24 ∧
      s0.dst.bitbuf ≠ s0.cfg.dstarEot24 := by decide +kernel
theorem witness_HeaderBitDecodesAtTheLast :
    (Ready (locked 4 19) ∧ 0 ≤ (locked 4 19).car.synctype.toInt ∧ (locked 4 19).car.synctype.toInt ≤ 19) ∧
      (let s := { locked 4 18 with hdr.hdCnt := 659 }; (countUp .hdCnt s.hdr.hdCnt).toNat = 660) ∧
      (countUp .hdCnt (locked 4 18).hdr.hdCnt).toNat ≠ 660 := by decide +kernel

/-- A history that holds a 660-bit block as raw characters, the first bit deepest: 1 as 3, 0 as 1. -/
def blockHistory (x : Block) : Hist where
  cells := (List.range 660).map fun i => (i, if x.getLsbD i then 3 else 1)
  wp := 660

/-- The all-zero header's transmitted block, its first bit wrong, received under code 18. -/
theorem witness_TransmittedHeaderIsReceived :
    let h : Vector Byte 41 := Vector.replicate 41 0
    let x := transmitBlock decided h ^^^ BitVec.twoPow 660 0
    let s := { locked 4 18 with hist := blockHistory x }
    Ready s ∧ s.cfg.convCode = ⟨7, 5⟩ ∧ s.car.synctype = 18 ∧
      (List.range 660).all (fun i =>
        decide (lookBack s (660 - i) = 3) == (x.getLsbD i ^^ decide (s.car.synctype = 19))) = true := by decide +kernel

theorem witness_ForeignFrameTypesReturnToSearch :
    Ready s0 ∧ (Instr.ftypeNxdnDataInv, (17 : Ftype)) ∈ ftypeCodes ∧
      (17 : Ftype) ∉ ([6, 7, 10, 11, 12, 13, 18, 19] : List Ftype) := by decide +kernel
theorem witness_LockingFrameTypesEnterTheirProtocol :
    Ready s0 ∧ (Instr.ftypeDmrVoiceInv, (11 : Ftype)) ∈ ftypeCodes ∧ (Instr.ftypeDmrDataInv, (13 : Ftype)) ∈ ftypeCodes ∧
      (Instr.ftypeDstar, (6 : Ftype)) ∈ ftypeCodes ∧ (Instr.ftypeDstarhdInv, (19 : Ftype)) ∈ ftypeCodes := by
  decide +kernel
theorem witness_ModulationRowsWriteTheHypothesis :
    Ready { s0 with cfg.modQpsk := false, cfgReset.modQpsk := false } := by decide +kernel
theorem witness_CodeRowsWriteTheirCode : Ready { s0 with dmr.currentslot := true } := by decide +kernel
theorem witness_ConditionsPerformTheirWrites : Ready { locked 3 6 with fs.hint := 8, fs.tHint := 23 } := by
  decide +kernel

end Sys2Proof.Machine
end

section
/-! The statements of spec/00_scope.md: the guard of the operations, field by field, and the numbers that fit a register. -/

-- One declaration at a time, as in the tests, keeps the memory of the one-text compile small.
set_option Elab.async false

namespace Sys2Proof.Machine

/-! ### The guard every operation but `ORC.RESET` goes through (R5, R40, R53, R75, R232) -/

/-- The guard, each of its seven checks said of the field it reads. -/
theorem ready_iff (s : State) : Ready s ↔
    configLegal s.cfg = true ∧ s.cfg = s.cfgReset ∧ s.fsm.toNat ≤ 4 ∧ s.car.rfMod ≠ 3 ∧
      (∀ e ∈ s.fs.window.toList, e.toNat ≤ 4) ∧ (∀ e ∈ s.dmr.slotlight.toList, e ≠ 3) ∧ s.fs.lidx.toNat < 24 ∧
      s.hist.wp < s.cfg.histCap := by
  constructor
  · intro h
    obtain ⟨hlegal, hcfg, hfsm, hmod, hwindow, hlight, hindex⟩ := h.parts
    exact ⟨hlegal, hcfg, by omega, hmod, by simpa only [List.any_eq_false, decide_eq_true_eq, not_lt] using hwindow,
      by simpa only [List.any_eq_false, decide_eq_true_eq] using hlight, by omega, by omega⟩
  · rintro ⟨hlegal, hcfg, hfsm, hmod, hwindow, hlight, hlidx, hwp⟩
    have hwindow' : s.fs.window.toList.any (fun e => 4 < e.toNat) = false := by
      simpa only [List.any_eq_false, decide_eq_true_eq, not_lt] using hwindow
    have hlight' : s.dmr.slotlight.toList.any (fun e => e = 3) = false := by
      simpa only [List.any_eq_false, decide_eq_true_eq] using hlight
    unfold Ready guardOf
    rw [if_neg (by simp [hlegal]), if_neg (not_not.mpr hcfg), if_neg (by omega), if_neg hmod,
      if_neg (Bool.eq_false_iff.mp hwindow'), if_neg (Bool.eq_false_iff.mp hlight'), if_neg (by omega)]

/-- What an instruction other than `ORC.RESET` is: a reserved row, refused whatever the state (R75), or an operation that
goes through the guard. -/
theorem exec_refused_or_runIn {i : Instr} (hi : i ≠ .uopOrcReset) (s : State) :
    (∃ r, exec i s = .refused r) ∨ ∃ k, exec i s = runIn s k := by
  cases i with
  | uopOrcReset => exact absurd rfl hi
  | dispatchReserved5 | dispatchReserved67 | rfmodReserved | slotlightReserved => exact .inl ⟨_, rfl⟩
  | _ =>
    unfold exec
    exact .inr ⟨_, rfl⟩

/-- Where operations do not run, every instruction but `ORC.RESET` is refused. -/
theorem exec_refused_of_not_ready {i : Instr} {s : State} (hi : i ≠ .uopOrcReset) (hs : ¬ Ready s) :
    ∃ r, exec i s = .refused r := by
  obtain hr | ⟨k, hk⟩ := exec_refused_or_runIn hi s
  · exact hr
  · exact hk ▸ runIn_refused hs k

/-- Settles O8: the guard's checks are those of the statement, and nothing but `ORC.RESET` avoids it. -/
theorem onlyReadyStatesRun : Obligations.OnlyReadyStatesRun :=
  ⟨ready_iff, fun _ _ hi hs => exec_refused_of_not_ready hi hs⟩

/-! ### Numbers into registers (R7, R36) -/

/-- Past the width, an unsigned register takes the free value. -/
theorem fitU_of_le {w n : Nat} (r : Counter) (h : 2 ^ w ≤ n) : fitU w r n = Config.pastWidth w r n :=
  if_neg (Nat.not_lt.mpr h)

/-- A number in the signed range is what the register then reads. -/
theorem fitS_toInt {w : Nat} {x : Int} (r : Counter) (hw : 0 < w) (hlo : -(2 ^ (w - 1)) ≤ x) (hhi : x < 2 ^ (w - 1)) :
    (fitS w r x).toInt = x := by
  rw [fitS_of_mem r ⟨hlo, hhi⟩]
  exact BitVec.toInt_ofInt_eq_self hw hlo hhi

/-- Outside the signed range, a signed register takes the free value. -/
theorem fitS_of_not_mem {w : Nat} {x : Int} (r : Counter) (h : x < -(2 ^ (w - 1)) ∨ 2 ^ (w - 1) ≤ x) :
    fitS w r x = Config.pastWidth w r x :=
  if_neg fun ⟨hlo, hhi⟩ => h.elim (not_lt.mpr hlo) (not_le.mpr hhi)

/-- Settles O11: inside the range and outside it, for an unsigned register, a signed register and a counter. -/
theorem numbersThatFitAreWrittenExactly : Obligations.NumbersThatFitAreWrittenExactly :=
  ⟨fun _ r _ => ⟨fitU_toNat r, fitU_of_le r⟩, fun _ r _ hw => ⟨fitS_toInt r hw, fitS_of_not_mem r⟩,
    fun _ r v h => countUp_toNat r v h⟩

end Sys2Proof.Machine
end

section
/-! The statements of spec/10_state.md: what every step of the machine keeps of the state. -/

-- One declaration at a time, as in the tests, keeps the memory of the one-text compile small.
set_option Elab.async false

namespace Sys2Proof.Machine

/-! ### The invariant of all steps, register group by register group -/

/-- What `Inv` says of the CAR registers (R61, R63, R104). -/
structure CarOk (c : CarRegs) : Prop where
  rfMod : c.rfMod ≠ 3
  synctype : ftypeOk c.synctype
  lastsynctype : ftypeOk c.lastsynctype
  levels : levels c = c

/-- What `Inv` says of the FS registers (R40, R61, R65). -/
structure FsOk (f : FsRegs) : Prop where
  window : ∀ e ∈ f.window.toList, e.toNat ≤ 4
  hint : ftypeOk f.hint
  lidx : f.lidx.toNat < 24

/-- What `Inv` says of the DMR registers: no light holds the reserved code (R69). -/
def LightsOk (d : DmrRegs) : Prop := ∀ e ∈ d.slotlight.toList, e ≠ 3

namespace Inv

variable {s : State}

theorem carOk (h : Inv s) : CarOk s.car := ⟨h.codes.rfMod, h.codes.synctype, h.codes.lastsynctype, h.levels⟩

theorem fsOk (h : Inv s) : FsOk s.fs := ⟨h.codes.window, h.codes.hint, h.codes.lidx⟩

theorem lightsOk (h : Inv s) : LightsOk s.dmr := h.codes.light

end Inv

/-- `t` meets the invariant of all steps in each register group in which `s` meets it, under the same configuration. A
group an operation does not write needs no argument. -/
structure Keeps (s t : State) : Prop where
  cfg : t.cfg = s.cfg := by rfl
  cfgReset : t.cfgReset = s.cfgReset := by rfl
  fsm : s.fsm.toNat ≤ 4 → t.fsm.toNat ≤ 4 := by exact id
  hist : HistOk s → HistOk t := by exact fun h => ⟨h.wf, h.inside, h.pointer⟩
  car : CarOk s.car → CarOk t.car := by exact id
  fs : FsOk s.fs → FsOk t.fs := by exact id
  dmr : LightsOk s.dmr → LightsOk t.dmr := by exact id
  str : PeriodOk s → PeriodOk t := by exact fun h => ⟨h.plen, h.sidx⟩

theorem Inv.of_keeps {s t : State} (h : Inv s) (k : Keeps s t) : Inv t where
  legal := k.cfg ▸ h.legal
  fixed := by rw [k.cfg, k.cfgReset, h.fixed]
  hist := k.hist h.hist
  codes :=
    have hcar := k.car h.carOk
    have hfs := k.fs h.fsOk
    ⟨k.fsm h.codes.fsm, hcar.rfMod, hfs.window, k.dmr h.lightsOk, hcar.synctype, hcar.lastsynctype, hfs.hint, hfs.lidx⟩
  period := k.str h.period
  levels := (k.car h.carOk).levels

/-! ### The shared operations keep the invariant -/

/-- A frame-type code 0 to 19 fits an `FTYPE` register. -/
theorem ftypeOk_of_lt {c : Ftype} (h : c.toNat < 20) : ftypeOk c := by
  rw [ftypeOk, BitVec.toInt_eq_toNat_of_lt (by omega)]
  omega

theorem ftypeOk_none : ftypeOk ftypeNone := ⟨by decide, by decide⟩

/-- Writing a light other than the reserved code leaves the lights legal. -/
theorem lightsOk_set {d : DmrRegs} (h : LightsOk d) (i : Nat) {l : BitVec 2} (hl : l ≠ 3) :
    LightsOk { d with slotlight := d.slotlight.setIfInBounds i l } := by
  intro e he
  rw [Vector.toList_setIfInBounds] at he
  obtain he | rfl := List.mem_or_eq_of_mem_set he
  · exact h e he
  · exact hl

theorem lightsOk_replicate_idle (d : DmrRegs) : LightsOk { d with slotlight := Vector.replicate 2 lightIdle } := by
  intro e he
  have he' : e ∈ List.replicate 2 lightIdle := by simpa using he
  rw [List.eq_of_mem_replicate he']
  decide

/-- A window of `E` alone holds no reserved entry. -/
theorem windowOk_replicate : ∀ e ∈ (Vector.replicate 32 wentE).toList, e.toNat ≤ 4 := by
  intro e he
  have he' : e ∈ List.replicate 32 wentE := by simpa using he
  rw [List.eq_of_mem_replicate he']
  decide

theorem carOk_levels {c : CarRegs} (h : CarOk c) (hi lo : Sample) : CarOk (levels { c with max := hi, min := lo }) :=
  ⟨h.rfMod, h.synctype, h.lastsynctype, levels_levels _⟩

theorem carOk_unlocked {c : CarRegs} (h : CarOk c) : CarOk (levels { c with synctype := ftypeNone }) :=
  ⟨h.rfMod, ftypeOk_none, h.lastsynctype, levels_levels _⟩

theorem emit_inv {s : State} (h : Inv s) (e : Event) : Inv (emit e s) := h.of_keeps {}

/-- The history stays canonical and inside its ring (R41, R42). -/
theorem histPush_histOk {s : State} (h : HistOk s) (d : Dibit) : HistOk (histPush d s) where
  wf := histWf_push h.wf d
  inside p hp := by
    obtain rfl | hp := mem_histWrite hp
    · exact h.pointer
    · exact h.inside p hp
  pointer := Nat.mod_lt _ (Nat.zero_lt_of_lt h.pointer)

theorem histPush_inv {s : State} (h : Inv s) (d : Dibit) : Inv (histPush d s) :=
  h.of_keeps { hist := fun hm => histPush_histOk hm d }

theorem observe_inv {s : State} (h : Inv s) (v : Sample) : Inv (observe v s) := by
  have hl : (BitVec.ofNat 5 ((s.fs.lidx.toNat + 1) % 24)).toNat < 24 := by
    rw [BitVec.toNat_ofNat]
    omega
  refine histPush_inv (h.of_keeps ?_) _
  exact { fs := fun hf => ⟨hf.window, hf.hint, hl⟩ }

/-- The levels do not depend on the modulation class (R104). -/
theorem carOk_rfMod {c : CarRegs} (h : CarOk c) {m : BitVec 2} (hm : m ≠ 3) : CarOk { c with rfMod := m } :=
  ⟨hm, h.synctype, h.lastsynctype, congrArg (fun d : CarRegs => { d with rfMod := m }) h.levels⟩

/-- Writing a modulation class that is not the reserved code (R98). -/
theorem applyHypothesis_inv {s : State} (h : Inv s) {m : BitVec 2} (hm : m ≠ 3) : Inv (applyHypothesis m s) := by
  have hm' : (if modEnabled s.cfg m then m else s.car.rfMod) ≠ 3 := by
    split
    · exact hm
    · exact h.carOk.rfMod
  exact h.of_keeps { car := fun hc => carOk_rfMod hc hm' }

theorem hypothesisClass_ne (c : Config) (flips : Nat) : hypothesisClass c flips ≠ 3 := by
  unfold hypothesisClass
  split
  · decide
  · split <;> decide

theorem modulationWindow_inv {s : State} (h : Inv s) : Inv (modulationWindow s) := by
  unfold modulationWindow
  split
  · have hl : Inv { s with fs.lastt := 0 } := h.of_keeps { fs := fun hf => ⟨hf.window, hf.hint, hf.lidx⟩ }
    exact applyHypothesis_inv hl (hypothesisClass_ne _ _)
  · exact h.of_keeps { fs := fun hf => ⟨hf.window, hf.hint, hf.lidx⟩ }

theorem shiftWindow_inv {s : State} (h : Inv s) {e : Went} (he : e.toNat ≤ 4) : Inv (shiftWindow e s) := by
  refine h.of_keeps { fs := fun hf => ⟨fun x hx => ?_, hf.hint, hf.lidx⟩ }
  obtain rfl | hx := mem_shiftIn hx
  · exact he
  · exact hf.window x hx

theorem ageHint_inv {s : State} (h : Inv s) : Inv (ageHint s) := by
  unfold ageHint
  split
  · exact h.of_keeps { fs := fun hf => ⟨hf.window, hf.hint, hf.lidx⟩ }
  · exact h

theorem dropHint_inv {s : State} (h : Inv s) : Inv (dropHint s) :=
  h.of_keeps { fs := fun hf => ⟨hf.window, ftypeOk_none, hf.lidx⟩ }

theorem expireHint_inv {s : State} (h : Inv s) : Inv (expireHint s) := by
  unfold expireHint
  split
  · exact dropHint_inv h
  · exact h

theorem countMiss_inv {s : State} (h : Inv s) : Inv (countMiss s) :=
  h.of_keeps { fs := fun hf => ⟨hf.window, hf.hint, hf.lidx⟩ }

theorem searchIntake_inv {s : State} (h : Inv s) (v : Sample) : Inv (searchIntake v s) := by
  have he : ((searchDibit s v).setWidth 3).toNat ≤ 4 := by
    unfold searchDibit
    split <;> decide
  exact ageHint_inv (shiftWindow_inv (modulationWindow_inv (observe_inv h v)) he)

theorem recalibrate_inv {s : State} (h : Inv s) : Inv (recalibrate s) :=
  h.of_keeps { car := fun hc => carOk_levels hc _ _ }

theorem emptyWindowEntries_inv {s : State} (h : Inv s) : Inv (emptyWindowEntries s) :=
  h.of_keeps { fs := fun hf => ⟨windowOk_replicate, hf.hint, hf.lidx⟩ }

theorem toSearch_inv {s : State} (h : Inv s) : Inv (toSearch s) :=
  h.of_keeps
    { fsm := fun _ => Nat.zero_le 4
      car := carOk_unlocked
      fs := fun hf => ⟨windowOk_replicate, hf.hint, hf.lidx⟩ }

theorem reportNoSync_inv {s : State} (h : Inv s) : Inv (reportNoSync s) := toSearch_inv (emit_inv h _)

theorem setLight_inv {s : State} (h : Inv s) {l : BitVec 2} (hl : l ≠ 3) : Inv (setLight l s) :=
  h.of_keeps { dmr := fun hd => lightsOk_set hd _ hl }

theorem lightsIdle_inv {s : State} (h : Inv s) : Inv (lightsIdle s) :=
  h.of_keeps { dmr := fun _ => lightsOk_replicate_idle s.dmr }

/-- The levels `FS.NOCARRIER` writes are those of its extremes, 15000 and -15000 (R104, R108). -/
theorem noCarrier_levels (s : State) : levels (noCarrier s).car = (noCarrier s).car := by
  simp only [levels, noCarrier, CarRegs.mk.injEq]
  decide

theorem noCarrier_inv {s : State} (h : Inv s) : Inv (noCarrier s) :=
  h.of_keeps
    { car := fun hc => ⟨hc.rfMod, ftypeOk_none, ftypeOk_none, noCarrier_levels s⟩
      fs := fun hf => ⟨hf.window, ftypeOk_none, hf.lidx⟩
      dmr := fun _ => lightsOk_replicate_idle s.dmr }

/-! ### The symbol period (R80 to R88) -/

/-- The next period's length is within one sample of `SPS` (R86). -/
theorem nudge_cases (c : Config) (rf : BitVec 2) (j : Int) (sync : Bool) :
    nudge c rf j sync = c.sps - 1 ∨ nudge c rf j sync = c.sps ∨ nudge c rf j sync = c.sps + 1 := by
  unfold nudge
  repeat' split
  all_goals simp

/-- A boundary begins a legal period (R86, R88). -/
theorem boundary_periodOk {s : State} (h : configLegal s.cfg = true) (sync : Bool) : PeriodOk (boundary sync s) := by
  obtain ⟨hlo, hhi, -, -⟩ := configLegal_sps h
  have hn := nudge_cases s.cfg s.car.rfMod s.str.jitter.toInt sync
  have hlt : nudge s.cfg s.car.rfMod s.str.jitter.toInt sync < 2 ^ 9 := by omega
  have hp : (boundary sync s).str.plen.toNat = nudge s.cfg s.car.rfMod s.str.jitter.toInt sync := Nat.mod_eq_of_lt hlt
  have hi : (boundary sync s).str.sidx.toNat = 0 := rfl
  exact ⟨by rw [hp, boundary_cfg]; omega, by rw [hp, hi]; omega⟩

theorem boundary_inv {s : State} (h : Inv s) (sync : Bool) : Inv (boundary sync s) :=
  h.of_keeps { str := fun _ => boundary_periodOk h.legal sync }

@[simp] theorem accumulate_sidx (v : Sample) (s : State) : (accumulate v s).str.sidx = s.str.sidx := by
  simp only [accumulate]; split <;> rfl

@[simp] theorem accumulate_plen (v : Sample) (s : State) : (accumulate v s).str.plen = s.str.plen := by
  simp only [accumulate]; split <;> rfl

@[simp] theorem strIntake_plen (v : Sample) (sync : Bool) (s : State) : (strIntake v sync s).str.plen = s.str.plen :=
  accumulate_plen ..

theorem strIntake_sidx (v : Sample) (sync : Bool) (s : State) :
    (strIntake v sync s).str.sidx = countUp .sidx s.str.sidx :=
  congrArg (countUp .sidx) (accumulate_sidx ..)

/-- `STR.PUSH` leaves a legal period: the sample index stays inside, or a new period begins (R80, R84). -/
theorem strPush_periodOk {s : State} (h : Inv s) (v : Sample) (sync : Bool) : PeriodOk (strPush v sync s).1 := by
  by_cases hin : (strIntake v sync s).str.sidx.toNat < (strIntake v sync s).str.plen.toNat
  · rw [strPush_inside hin]
    exact ⟨by rw [strIntake_plen, strIntake_cfg]; exact h.period.plen, hin⟩
  · rw [strPush_boundary hin]
    exact boundary_periodOk (by rw [strIntake_cfg]; exact h.legal) sync

theorem strPush_inv {s : State} (h : Inv s) (v : Sample) (sync : Bool) : Inv (strPush v sync s).1 := by
  have hp := strPush_periodOk h v sync
  obtain ⟨str, maj, ht⟩ := strPush_frame v sync s
  rw [ht] at hp ⊢
  exact h.of_keeps { str := fun _ => hp }

/-! ### The search, the slots and the decoders (R95, R151 to R192) -/

theorem searchMiss_inv {s : State} (h : Inv s) : Inv (searchMiss s).1 := by
  have hm := countMiss_inv (expireHint_inv h)
  obtain ht | ht := searchMiss_cases s
  · rw [ht]; exact noCarrier_inv hm
  · rw [ht]; exact hm

/-- `FS.STEP` keeps the invariant: a hint it takes is the code of a row of the legal table. -/
theorem fsStep_inv {s : State} (h : Inv s) (v : Sample) : Inv (fsStep v s).1 := by
  have hs := searchIntake_inv h v
  obtain ⟨-, ht⟩ | ⟨r, hm, ht | ⟨-, ht⟩⟩ := fsStep_cases v s
  · rw [ht]; exact searchMiss_inv hs
  · rw [ht]; exact dropHint_inv (recalibrate_inv hs)
  · have hr := recalibrate_inv hs
    have hc := ftypeOk_of_lt (codeOf_legal hs.legal (firstMatch_mem hm))
    rw [ht]
    exact searchMiss_inv (hr.of_keeps { fs := fun hf => ⟨hf.window, hc, hf.lidx⟩ })

/-- A code `FS.STEP` reports is a frame-type code of the table (R101). -/
theorem fsStep_code_legal {s : State} (h : Inv s) {v : Sample} {code : Ftype} (hc : (fsStep v s).2 = .sync code) :
    code.toNat < 20 := by
  have hmiss : ∀ u, (searchMiss u).2 ≠ .sync code := by
    intro u
    obtain ht | ht := searchMiss_cases u <;> rw [ht] <;> exact nofun
  obtain ⟨-, ht⟩ | ⟨r, hm, ht | ⟨-, ht⟩⟩ := fsStep_cases v s
  · exact absurd (ht ▸ hc) (hmiss _)
  · rw [ht] at hc
    cases hc
    exact codeOf_legal (searchIntake_inv h v).legal (firstMatch_mem hm)
  · exact absurd (ht ▸ hc) (hmiss _)

/-- `sync_eval` writes no reserved light (R165). -/
theorem syncEval_lightsOk {s : State} (h : LightsOk s.dmr) : LightsOk (syncEval s).dmr := by
  obtain ⟨mute, msMode, light, ht, rfl | ⟨l, hl, rfl⟩⟩ := syncEval_frame s
  · rw [ht]; exact h
  · rw [ht]; exact lightsOk_set h _ hl

theorem slotOperation_lightsOk {s : State} (h : LightsOk s.dmr) (sub : Nat) (d : Dibit) (k : Nat) :
    LightsOk (slotOperation sub d k s).dmr := by
  unfold slotOperation
  split
  case h_2 => simp only [slot1]; split <;> exact h
  case h_5 => simp only [slot4]; split <;> [exact syncEval_lightsOk h; exact h]
  case h_6 => simp only [slot5]; split <;> exact h
  case h_7 => simp only [slot6]; split <;> exact h
  all_goals exact h

theorem slotOperation_inv {s : State} (h : Inv s) (sub : Nat) (d : Dibit) (k : Nat) :
    Inv (slotOperation sub d k s) := by
  have hl := slotOperation_lightsOk h.lightsOk sub d k
  obtain ⟨dmr, events, ht, -, -⟩ := slotOperation_frame sub d k s
  rw [ht] at hl ⊢
  exact h.of_keeps { dmr := fun _ => hl }

theorem process_inv {s : State} (h : Inv s) (idx : Nat) (d : Dibit) : Inv (process idx d s) :=
  slotOperation_inv h _ d _

theorem replay_inv {s : State} (h : Inv s) (x : Dibit) (ps : List Nat) : Inv (replay x ps s) := by
  induction ps generalizing s with
  | nil => exact h
  | cons p ps ih => exact ih (process_inv h _ _)

theorem dmrvEnter_inv {s t : State} (h : Inv s) (ht : dmrvEnter s = .ok t) : Inv t := by
  unfold dmrvEnter at ht
  generalize List.range' 54 90 = ps at ht
  split at ht
  · cases ht
  · split at ht
    · cases ht
    · cases ht
      have he : Inv { s with fsm := processingDmrVoice } := h.of_keeps { fsm := fun _ => (by decide : 1 ≤ 4) }
      exact (replay_inv he (if s.car.synctype = 11 then 2 else 0) ps).of_keeps {}

theorem syncEval_inv {s : State} (h : Inv s) : Inv (syncEval s) := by
  have hl := syncEval_lightsOk h.lightsOk
  obtain ⟨mute, msMode, light, ht, -⟩ := syncEval_frame s
  rw [ht] at hl ⊢
  exact h.of_keeps { dmr := fun _ => hl }

/-- The DMR registers after `DMRD.ENTER` has read its fields from the history (R166). -/
def burstFields (s : State) : DmrRegs :=
  { s.dmr with
    cach := tabulate 12 fun k => dataBack s (90 - k)
    currentslot := slotBit s.cfg (dataBack s (90 - s.cfg.cachSlotDibit))
    slottype := dataBack s 29 ++ dataBack s 28
    bursttype := dataBack s 27 ++ dataBack s 26
    syncf := tabulate 24 fun k => syncChar (dataBack s (24 - k)) }

/-- The state in which `DMRD.ENTER` evaluates the sync field. -/
def burstRead (s : State) : State := { s with fsm := processingDmrData, dmr := burstFields s }

/-- `DMRD.ENTER` evaluates the sync field it read, reports the burst and clears the counter (R166). -/
theorem dmrdEnter_ok_burstRead {s t : State} (ht : dmrdEnter s = .ok t) :
    ∃ e, t = { emit e (syncEval (burstRead s)) with dmr.dcount := 0 } := by
  unfold dmrdEnter at ht
  split at ht
  · cases ht
  · split at ht
    · cases ht
    · cases ht
      exact ⟨_, rfl⟩

theorem dmrdEnter_inv {s t : State} (h : Inv s) (ht : dmrdEnter s = .ok t) : Inv t := by
  obtain ⟨e, rfl⟩ := dmrdEnter_ok_burstRead ht
  have hr : Inv (burstRead s) := h.of_keeps { fsm := fun _ => (by decide : 2 ≤ 4) }
  exact (emit_inv (syncEval_inv hr) e).of_keeps {}

/-! ### The orchestrator and the protocol states (R178 to R207) -/

theorem dbtNext_inv {s t : State} {d : Dibit} (h : Inv s) (ht : dbtNext s = .ok (t, d)) : Inv t := by
  obtain ⟨-, -, rfl, -⟩ := dbtNext_ok_iff.mp ht
  exact histPush_inv h _

theorem dmrvStep_inv {s t : State} (h : Inv s) (ht : dmrvStep s = .ok t) : Inv t := by
  obtain ⟨u, d, hu, rfl⟩ := dmrvStep_ok ht
  have hm : ∀ n, Inv { process u.dmr.symbolIndex.toNat d u with dmr.symbolIndex := n } :=
    fun n => (process_inv (dbtNext_inv h hu) _ d).of_keeps {}
  dsimp only
  split
  · exact toSearch_inv (hm _)
  · exact hm _

theorem dmrdStep_inv {s t : State} (h : Inv s) (ht : dmrdStep s = .ok t) : Inv t := by
  obtain ⟨u, d, hu, rfl⟩ := dmrdStep_ok ht
  have hm : ∀ n, Inv { u with dmr.dcount := n } := fun n => (dbtNext_inv h hu).of_keeps {}
  dsimp only
  split
  · exact toSearch_inv (hm _)
  · exact hm _

theorem intake_inv {s t : State} {b : Bool} (h : Inv s) (ht : intake s = .ok (t, b)) : Inv t := by
  obtain ⟨u, d, hu, -, rfl⟩ := intake_ok ht
  exact (dbtNext_inv h hu).of_keeps {}

theorem dstvBit_inv {s t : State} (h : Inv s) (ht : dstvBit s = .ok t) : Inv t := by
  obtain ⟨-, u, b, hu, rfl⟩ := dstvBit_ok ht
  have hi := intake_inv h hu
  obtain ⟨-, hv⟩ | ⟨-, dfr, events, hv⟩ := voiceBit_cases b u
  · rw [hv]; exact hi.of_keeps {}
  · rw [hv]; exact hi.of_keeps {}

theorem endSegment_inv {s : State} (h : Inv s) : Inv (endSegment s) := by
  obtain ⟨-, he⟩ | ⟨-, he⟩ := endSegment_cases s
  · rw [he]; exact toSearch_inv h
  · rw [he]; exact h.of_keeps {}

theorem evaluate_inv {s : State} (h : Inv s) : Inv (evaluate s) := by
  obtain ⟨-, he⟩ | ⟨-, -, he⟩ | ⟨-, -, he⟩ := evaluate_cases s
  · rw [he]; exact endSegment_inv (h.of_keeps {})
  · rw [he]; exact toSearch_inv (h.of_keeps {})
  · rw [he]; exact endSegment_inv (h.of_keeps {})

theorem dataBit_inv {s : State} (h : Inv s) (b : Bool) : Inv (dataBit b s) := by
  simp only [dataBit]
  split
  · exact evaluate_inv (h.of_keeps {})
  · exact h.of_keeps {}

theorem dstdBit_inv {s t : State} (h : Inv s) (ht : dstdBit s = .ok t) : Inv t := by
  obtain ⟨-, u, b, hu, rfl⟩ := dstdBit_ok ht
  exact dataBit_inv (intake_inv h hu) b

theorem dsthDecode_inv {s t : State} (h : Inv s) (ht : dsthDecode s = .ok t) : Inv t := by
  obtain ⟨-, rfl⟩ := dsthDecode_ok ht
  exact h.of_keeps {}

theorem dsthBit_inv {s t : State} (h : Inv s) (ht : dsthBit s = .ok t) : Inv t := by
  obtain ⟨u, d, hu, ⟨-, rfl⟩ | ⟨-, w, hw, rfl⟩⟩ := dsthBit_ok ht
  · exact (dbtNext_inv h hu).of_keeps {}
  · exact toSearch_inv (dsthDecode_inv ((dbtNext_inv h hu).of_keeps {}) hw)

theorem dstEnter_inv {s : State} (h : Inv s) : Inv (dstEnter s) := h.of_keeps { fsm := fun _ => (by decide : 3 ≤ 4) }

theorem dsthEnter_inv {s : State} (h : Inv s) : Inv (dsthEnter s) := h.of_keeps { fsm := fun _ => Nat.le_refl 4 }

theorem enter_inv {s t : State} (h : Inv s) {code : Ftype} (ht : enter code s = .ok t) : Inv t := by
  obtain ⟨-, ht⟩ | ⟨-, ht⟩ | ⟨-, rfl⟩ | ⟨-, rfl⟩ | ⟨-, rfl⟩ := enter_ok ht
  · exact dmrvEnter_inv h ht
  · exact dmrdEnter_inv h ht
  · exact dstEnter_inv h
  · exact dsthEnter_inv h
  · exact toSearch_inv h

/-- The levels do not depend on the lock (R104). -/
theorem carOk_locked {c : CarRegs} (h : CarOk c) {code : Ftype} (hc : ftypeOk code) :
    CarOk { c with synctype := code, lastsynctype := code, carrier := true } :=
  ⟨h.rfMod, hc, hc,
    congrArg (fun d : CarRegs => { d with synctype := code, lastsynctype := code, carrier := true }) h.levels⟩

/-- The reaction to a result of `FS.STEP` whose code is a frame-type code (R203). -/
theorem react_inv {s t : State} (h : Inv s) {r : SyncResult} (hr : ∀ code, r = .sync code → code.toNat < 20)
    (ht : react r s = .ok t) : Inv t := by
  cases r with
  | none => cases ht; exact h
  | noSync => cases ht; exact reportNoSync_inv h
  | sync code =>
    refine enter_inv (h.of_keeps ?_) ht
    exact { car := fun hc => carOk_locked hc (ftypeOk_of_lt (hr code rfl)) }

theorem onSearch_inv {s t : State} (h : Inv s) {v : Sample} (ht : onSearch v s = .ok t) : Inv t :=
  react_inv (fsStep_inv h v) (fun _ => fsStep_code_legal h) ht

/-- The operation a symbol gets, if it answers: that of the state the dispatch word is of (R58, R200). -/
theorem selectOperation_ok {s u t : State} (h : selectOperation (dispatchWord s) u = .ok t) :
    (s.fsm = lookingForSync ∧ onSearch u.str.symbol u = .ok t) ∨
      (s.fsm = processingDmrVoice ∧ dmrvStep u = .ok t) ∨ (s.fsm = processingDmrData ∧ dmrdStep u = .ok t) ∨
      (s.fsm = processingDStar ∧ (dstvBit u = .ok t ∨ dstdBit u = .ok t)) ∨
      (s.fsm = processingDStarHeader ∧ dsthBit u = .ok t) := by
  rw [selectOperation_dispatchWord] at h
  split at h
  · exact .inl ⟨‹_›, h⟩
  · split at h
    · exact .inr (.inl ⟨‹_›, h⟩)
    · split at h
      · exact .inr (.inr (.inl ⟨‹_›, h⟩))
      · split at h
        · refine .inr (.inr (.inr (.inl ⟨‹_›, ?_⟩)))
          split at h
          · exact .inl h
          · exact .inr h
        · split at h
          · exact .inr (.inr (.inr (.inr ⟨‹_›, h⟩)))
          · cases h

/-- Whatever the dispatch word of a state selects keeps the invariant (R200). -/
theorem selectOperation_inv {s u t : State} (h : Inv u) (ht : selectOperation (dispatchWord s) u = .ok t) : Inv t := by
  obtain ⟨-, ht⟩ | ⟨-, ht⟩ | ⟨-, ht⟩ | ⟨-, ht | ht⟩ | ⟨-, ht⟩ := selectOperation_ok ht
  · exact onSearch_inv h ht
  · exact dmrvStep_inv h ht
  · exact dmrdStep_inv h ht
  · exact dstvBit_inv h ht
  · exact dstdBit_inv h ht
  · exact dsthBit_inv h ht

theorem orcPush_inv {s t : State} (h : Inv s) {v : Sample} (ht : orcPush v s = .ok t) : Inv t := by
  have hs : Inv { s with events := [] } := h.of_keeps {}
  have hp := strPush_inv hs v (haveSync s)
  obtain ⟨-, hk⟩ | ⟨y, -, hk⟩ := orcPush_cases v s
  · cases hk.symm.trans ht
    exact hp
  · exact selectOperation_inv (hp.of_keeps {}) (hk.symm.trans ht)

/-- The reset state of a legal configuration meets the invariant (R235). -/
theorem resetWith_inv {c : Config} (h : configLegal c = true) (input : List CommandWord) :
    Inv (State.resetWith c input) := by
  obtain ⟨hlo, hhi, -, -⟩ := configLegal_sps h
  have hcap := configLegal_histCap h
  have hp : (State.resetWith c input).str.plen.toNat = c.sps := by
    have hlt : c.sps < 2 ^ 9 := by omega
    exact Nat.mod_eq_of_lt hlt
  have hi : (State.resetWith c input).str.sidx.toNat = 0 := rfl
  exact {
    legal := h
    fixed := rfl
    hist := ⟨rfl, fun _ hp => absurd hp (List.not_mem_nil), by change 0 < c.histCap; omega⟩
    codes := ⟨Nat.zero_le 4, by change (0 : BitVec 2) ≠ 3; decide, windowOk_replicate,
      lightsOk_replicate_idle (State.resetWith c input).dmr, ftypeOk_none, ftypeOk_none, ftypeOk_none,
      Nat.zero_lt_succ 23⟩
    period := ⟨.inr (.inl hp), by rw [hp, hi]; omega⟩
    levels := noCarrier_levels (State.resetWith c input) }

/-- `ORC.RESET` answers the reset state under the host's configuration, if it is legal (R212). -/
theorem exec_orcReset {s : State} (h : configLegal s.cfg = true) :
    exec .uopOrcReset s = .next (State.resetWith s.cfg s.input) :=
  if_neg (by simp [h])

/-! ### Every instruction keeps the invariant -/

/-- The symbol is written after the boundary's registers. -/
theorem withSymbol_inv {s : State} (h : Inv s) (v : Sample) : Inv { s with str.symbol := v } := h.of_keeps {}

theorem withRet_inv {s : State} (h : Inv s) (r : Ret) : Inv { s with ret := r } := h.of_keeps {}

theorem takeCondition_inv {s : State} (h : Inv s) (c : Cond) : Inv (takeCondition c s) := by
  cases c with
  | noSync => exact countMiss_inv (expireHint_inv (searchIntake_inv h _))
  | carrierLoss => exact reportNoSync_inv (noCarrier_inv h)
  | bitSlip => exact h.of_keeps {}
  | emptyWindow => exact withSymbol_inv (boundary_inv h _) 0
  | endOfTx => exact toSearch_inv (emit_inv h _)
  | syncMissExceeded | frameDone | foreignSync => exact toSearch_inv h

/-- What an operation answers when it answers a next state. -/
theorem ok_of_runIn {s t : State} {k : Except Refusal State} (h : runIn s k = .next t) : k = .ok t :=
  (runIn_next_iff.mp h).2

theorem runIn_ok_inv {s t u : State} (hu : Inv u) (h : runIn s (.ok u) = .next t) : Inv t := by
  cases ok_of_runIn h
  exact hu

/-- A slot row answers what its slot operation does, if it answers. -/
theorem onOffset_ok {size : Nat} {k : BitVec 6} {t u : State} (h : onOffset size k u = .ok t) : t = u := by
  unfold onOffset at h
  split at h <;> cases h
  rfl

theorem onHandOff_ok {last : Nat} {k : BitVec 6} {s t : State} {r : Except Refusal State}
    (h : onHandOff last k s r = .ok t) : r = .ok t := by
  unfold onHandOff at h
  split at h
  · cases h
  · exact h

/-- The row of a frame-type code performs the reaction to the code (R62, R203). -/
theorem exec_ftypeRow {i : Instr} {code : Ftype} (h : (i, code) ∈ ftypeCodes) (s : State) :
    exec i s = runIn s (react (.sync code) s) := by
  simp only [ftypeCodes, List.mem_cons, List.not_mem_nil, or_false, Prod.mk.injEq] at h
  rcases h with ⟨rfl, rfl⟩ | ⟨rfl, rfl⟩ | ⟨rfl, rfl⟩ | ⟨rfl, rfl⟩ | ⟨rfl, rfl⟩ | ⟨rfl, rfl⟩ | ⟨rfl, rfl⟩ | ⟨rfl, rfl⟩ |
    ⟨rfl, rfl⟩ | ⟨rfl, rfl⟩ | ⟨rfl, rfl⟩ | ⟨rfl, rfl⟩ | ⟨rfl, rfl⟩ | ⟨rfl, rfl⟩ | ⟨rfl, rfl⟩ | ⟨rfl, rfl⟩ | ⟨rfl, rfl⟩ |
    ⟨rfl, rfl⟩ | ⟨rfl, rfl⟩ | ⟨rfl, rfl⟩ <;> rfl

theorem ftypeCodes_lt : ∀ p ∈ ftypeCodes, p.2.toNat < 20 := by decide

theorem ftypeRow_inv {i : Instr} {s t : State} (h : Inv s) (hi : i ∈ ftypeCodes.map Prod.fst)
    (ht : exec i s = .next t) : Inv t := by
  obtain ⟨⟨i, code⟩, hm, rfl⟩ := List.mem_map.mp hi
  rw [exec_ftypeRow hm] at ht
  exact react_inv h (fun _ he => by cases he; exact ftypeCodes_lt _ hm) (ok_of_runIn ht)

theorem noSyncRow_inv {s t : State} (h : Inv s) (ht : execFtypeNone s = .next t) : Inv t :=
  runIn_ok_inv (reportNoSync_inv h) ht

theorem dbtRow_inv {s t : State} (h : Inv s) (ht : execUopDbtNext s = .next t) : Inv t := by
  have hk := ok_of_runIn ht
  cases hd : dbtNext s with
  | error r => simp [hd] at hk
  | ok p =>
    simp only [hd] at hk
    cases hk
    exact withRet_inv (dbtNext_inv h hd) _

/-- EVERY instruction keeps the invariant of all steps. -/
theorem exec_inv {i : Instr} {s t : State} (h : Inv s) (ht : exec i s = .next t) : Inv t := by
  cases i with
  | fsStep => exact onSearch_inv h (ok_of_runIn ht)
  | dmrvSlot0 d k | dmrvSlot8 d k | dmrvSlot10 d k | dmrvTail d k => exact runIn_ok_inv h ht
  | dmrvSlot1 d k => exact onOffset_ok (ok_of_runIn ht) ▸ slotOperation_inv h 1 d k.toNat
  | dmrvSlot2 d k => exact onOffset_ok (ok_of_runIn ht) ▸ slotOperation_inv h 2 d k.toNat
  | dmrvSlot3 d k => exact onOffset_ok (ok_of_runIn ht) ▸ slotOperation_inv h 3 d k.toNat
  | dmrvSlot4 d k => exact onOffset_ok (ok_of_runIn ht) ▸ slotOperation_inv h 4 d k.toNat
  | dmrvSlot5 d k => exact onOffset_ok (onHandOff_ok (ok_of_runIn ht)) ▸ slotOperation_inv h 5 d k.toNat
  | dmrvSlot6 d k => exact onOffset_ok (onHandOff_ok (ok_of_runIn ht)) ▸ slotOperation_inv h 6 d k.toNat
  | dmrvSlot7 d k => exact onOffset_ok (ok_of_runIn ht) ▸ slotOperation_inv h 7 d k.toNat
  | dmrvSlot9 d k => exact onOffset_ok (ok_of_runIn ht) ▸ slotOperation_inv h 9 d k.toNat
  | dmrdStep | uopDmrdStep => exact dmrdStep_inv h (ok_of_runIn ht)
  | dstvBit | uopDstvBit => exact dstvBit_inv h (ok_of_runIn ht)
  | dstdBit | uopDstdBit => exact dstdBit_inv h (ok_of_runIn ht)
  | dsthBit | uopDsthBit => exact dsthBit_inv h (ok_of_runIn ht)
  | dispatchReserved5 | dispatchReserved67 | rfmodReserved | slotlightReserved => cases ht
  | ftypeNone => exact noSyncRow_inv h ht
  | ftypeP25p1 | ftypeP25p1Inv | ftypeX2tdmaData | ftypeX2tdmaVoiceInv | ftypeX2tdmaVoice | ftypeX2tdmaDataInv
  | ftypeDstar | ftypeDstarInv | ftypeNxdnVoice | ftypeNxdnVoiceInv | ftypeDmrData | ftypeDmrVoiceInv | ftypeDmrVoice
  | ftypeDmrDataInv | ftypeProvoice | ftypeProvoiceInv | ftypeNxdnData | ftypeNxdnDataInv | ftypeDstarhd
  | ftypeDstarhdInv =>
    exact ftypeRow_inv h (by decide) ht
  | uopStrPush sample sync => exact runIn_ok_inv (withRet_inv (strPush_inv h sample sync) _) ht
  | uopMajVote => exact runIn_ok_inv (h.of_keeps {}) ht
  | uopFsStep v => exact runIn_ok_inv (withRet_inv (fsStep_inv h v) _) ht
  | uopFsNocarrier => exact runIn_ok_inv (noCarrier_inv h) ht
  | uopDbtNext => exact dbtRow_inv h ht
  | uopDscXor660 input | uopDilPerm660 input | uopVitDecode input => exact runIn_ok_inv (withRet_inv h _) ht
  | uopDmrvEnter => exact dmrvEnter_inv h (ok_of_runIn ht)
  | uopDmrvStep => exact dmrvStep_inv h (ok_of_runIn ht)
  | uopDmrdEnter => exact dmrdEnter_inv h (ok_of_runIn ht)
  | uopDstEnter => exact runIn_ok_inv (dstEnter_inv h) ht
  | uopDsthEnter => exact runIn_ok_inv (dsthEnter_inv h) ht
  | uopDsthDecode => exact dsthDecode_inv h (ok_of_runIn ht)
  | uopOrcTosearch => exact runIn_ok_inv (toSearch_inv h) ht
  | uopOrcPush sample => exact orcPush_inv h (ok_of_runIn ht)
  | uopOrcReset =>
    cases (exec_orcReset h.legal).symm.trans ht
    exact resetWith_inv h.legal s.input
  | rfmodC4fm | rfmodQpsk | rfmodGfsk => exact runIn_ok_inv (applyHypothesis_inv h (by decide)) ht
  | wentDigit0 | wentDigit1 | wentDigit2 | wentDigit3 => exact runIn_ok_inv (shiftWindow_inv h (by decide)) ht
  | wentE => exact runIn_ok_inv (emptyWindowEntries_inv h) ht
  | slotlightIdle => exact runIn_ok_inv (lightsIdle_inv h) ht
  | slotlightData | slotlightVoice => exact runIn_ok_inv (setLight_inv h (by decide)) ht
  | dibitRawAboveUmid | dibitRawCenterToUmid | dibitRawLmidToCenter | dibitRawBelowLmid =>
    exact runIn_ok_inv (histPush_inv h _) ht
  | burstPiHeader | burstVoiceLcHeader | burstTerminatorLc | burstCsbk | burstMbcHeader | burstMbcCont | burstDataHeader
  | burstRate12Data | burstRate34Data | burstIdle | burstRate1Data => exact runIn_ok_inv (h.of_keeps {}) ht
  | condNosync | condCarrierloss | condBitslip | condSyncmissexceeded | condEmptywindow | condFramedone | condEndoftx
  | condForeignsync => exact runIn_ok_inv (takeCondition_inv h _) ht

/-- Settles O14: a step idles, is refused, or performs one instruction on the state with its word taken. -/
theorem everyStepKeepsTheInvariant : Obligations.EveryStepKeepsTheInvariant := by
  intro s t h ht
  unfold step takeInput at ht
  cases hw : s.input with
  | nil =>
    simp only [hw] at ht
    cases ht
    exact h.of_keeps {}
  | cons w rest =>
    simp only [hw] at ht
    split at ht
    · cases ht
    · exact exec_inv (h.of_keeps {}) ht

end Sys2Proof.Machine
end

section
/-! The statements of spec/10_state.md, continued: what the host's operations keep besides. -/

-- One declaration at a time, as in the tests, keeps the memory of the one-text compile small.
set_option Elab.async false

namespace Sys2Proof.Machine

/-! ### The lock, its positions, and the sample of the period -/

/-- What `HostInv` says of the lock: its code enters `fsm`'s state (R109), the position of the D-STAR segment and the
header count are in bounds (R16). -/
structure LockOk (s : State) : Prop where
  lock : s.car.synctype ∈ lockCodes s.fsm
  dstar : s.fsm = processingDStar → s.dst.dstPos.toNat < Config.voiceSegment + s.cfg.dstarDataSyms
  header : s.fsm = processingDStarHeader → s.hdr.hdCnt.toNat < Config.headerSymbols

/-- `t` is at the same sample of the period as `s`, with as many samples averaged. -/
structure SameSample (s t : State) : Prop where
  sidx : t.str.sidx = s.str.sidx := by rfl
  cnt : t.str.cnt = s.str.cnt := by rfl

theorem SameSample.trans {s t u : State} (h : SameSample s t) (h' : SameSample t u) : SameSample s u :=
  ⟨h'.sidx.trans h.sidx, h'.cnt.trans h.cnt⟩

/-- What a search step may do to the lock and the sample: nothing, if there is no lock. -/
structure SearchesOn (s t : State) : Prop extends SameSample s t where
  fsm : t.fsm = s.fsm := by rfl
  unlocked : s.car.synctype = ftypeNone → t.car.synctype = ftypeNone := by exact id

theorem SearchesOn.trans {s t u : State} (h : SearchesOn s t) (h' : SearchesOn t u) : SearchesOn s u :=
  ⟨h.toSameSample.trans h'.toSameSample, h'.fsm.trans h.fsm, h'.unlocked ∘ h.unlocked⟩

/-- A search without a lock meets all that `LockOk` says. -/
theorem lockOk_of_search {s : State} (hf : s.fsm = lookingForSync) (hs : s.car.synctype = ftypeNone) : LockOk s where
  lock := by rw [hf, hs]; decide
  dstar h := absurd (hf.symm.trans h) (by decide)
  header h := absurd (hf.symm.trans h) (by decide)

theorem unlocked_of_search {s : State} (h : LockOk s) (hf : s.fsm = lookingForSync) :
    s.car.synctype = ftypeNone := by
  have hm := h.lock
  rw [hf] at hm
  exact List.mem_singleton.mp hm

theorem toSearch_lockOk (s : State) : LockOk (toSearch s) := lockOk_of_search rfl rfl

/-- A lock in a state without a bounded position. -/
theorem lockOk_of_dmr {s : State} {f : BitVec 3} (hf : s.fsm = f) (hd : f ≠ processingDStar)
    (hh : f ≠ processingDStarHeader) (hs : s.car.synctype ∈ lockCodes f) : LockOk s where
  lock := hf ▸ hs
  dstar h := absurd (hf.symm.trans h) hd
  header h := absurd (hf.symm.trans h) hh

/-- A D-STAR lock at a position inside its frame. -/
theorem lockOk_of_dstar {s : State} (hf : s.fsm = processingDStar) (hs : s.car.synctype ∈ lockCodes processingDStar)
    (hp : s.dst.dstPos.toNat < Config.voiceSegment + s.cfg.dstarDataSyms) : LockOk s where
  lock := hf ▸ hs
  dstar _ := hp
  header h := absurd (hf.symm.trans h) (by decide)

/-- A D-STAR header lock at a count inside the block. -/
theorem lockOk_of_header {s : State} (hf : s.fsm = processingDStarHeader)
    (hs : s.car.synctype ∈ lockCodes processingDStarHeader) (hp : s.hdr.hdCnt.toNat < Config.headerSymbols) :
    LockOk s where
  lock := hf ▸ hs
  dstar h := absurd (hf.symm.trans h) (by decide)
  header _ := hp

/-- A legal data segment has 24 or 25 symbols (R5). -/
theorem configLegal_dstarDataSyms {c : Config} (h : configLegal c = true) :
    c.dstarDataSyms = 24 ∨ c.dstarDataSyms = 25 := by
  simp only [configLegal, Bool.and_eq_true, Bool.or_eq_true, beq_iff_eq] at h
  tauto

/-! ### The search and the entry of a protocol state -/

theorem modulationWindow_searchesOn (s : State) : SearchesOn s (modulationWindow s) := by
  unfold modulationWindow
  split <;> exact {}

theorem ageHint_searchesOn (s : State) : SearchesOn s (ageHint s) := by
  unfold ageHint
  split <;> exact {}

theorem expireHint_searchesOn (s : State) : SearchesOn s (expireHint s) := by
  unfold expireHint
  split <;> exact {}

theorem searchIntake_searchesOn (v : Sample) (s : State) : SearchesOn s (searchIntake v s) :=
  have ho : SearchesOn s (observe v s) := {}
  have hw : SearchesOn (modulationWindow (observe v s))
    (shiftWindow ((searchDibit s v).setWidth 3) (modulationWindow (observe v s))) := {}
  ((ho.trans (modulationWindow_searchesOn _)).trans hw).trans (ageHint_searchesOn _)

theorem searchMiss_searchesOn (s : State) : SearchesOn s (searchMiss s).1 := by
  have hc : SearchesOn s (countMiss (expireHint s)) := (expireHint_searchesOn s).trans {}
  obtain h | h := searchMiss_cases s
  · rw [h]
    exact hc.trans { unlocked := fun _ => rfl }
  · rw [h]
    exact hc

/-- `FS.STEP` alone neither locks nor moves the sample (R95). -/
theorem fsStep_searchesOn (v : Sample) (s : State) : SearchesOn s (fsStep v s).1 := by
  have hi := searchIntake_searchesOn v s
  obtain ⟨-, h⟩ | ⟨r, -, h | ⟨-, h⟩⟩ := fsStep_cases v s
  · rw [h]
    exact hi.trans (searchMiss_searchesOn _)
  · rw [h]
    exact hi.trans {}
  · rw [h]
    refine (hi.trans ?_).trans (searchMiss_searchesOn _)
    exact {}

/-- An entry with a code leaves a lock on the code at the first position of its state, or a search (R204). -/
theorem enter_lockOk {code : Ftype} {s t : State} (hs : s.car.synctype = code) (h : enter code s = .ok t) :
    LockOk t ∧ SameSample s t := by
  obtain ⟨hc, h⟩ | ⟨hc, h⟩ | ⟨hc, rfl⟩ | ⟨hc, rfl⟩ | ⟨-, rfl⟩ := enter_ok h
  · obtain ⟨-, dmr, events, rfl, -⟩ := dmrvEnter_ok h
    have hm : s.car.synctype ∈ lockCodes processingDmrVoice := by rcases hc with rfl | rfl <;> rw [hs] <;> decide
    exact ⟨lockOk_of_dmr (rfl : _ = processingDmrVoice) (by decide) (by decide) hm, {}⟩
  · obtain ⟨-, dmr, events, rfl, -⟩ := dmrdEnter_ok h
    have hm : s.car.synctype ∈ lockCodes processingDmrData := by rcases hc with rfl | rfl <;> rw [hs] <;> decide
    exact ⟨lockOk_of_dmr (rfl : _ = processingDmrData) (by decide) (by decide) hm, {}⟩
  · have hm : s.car.synctype ∈ lockCodes processingDStar := by rcases hc with rfl | rfl <;> rw [hs] <;> decide
    have hp : (dstEnter s).dst.dstPos.toNat < Config.voiceSegment + s.cfg.dstarDataSyms :=
      Nat.add_pos_left (by decide) _
    exact ⟨lockOk_of_dstar rfl hm hp, {}⟩
  · have hm : s.car.synctype ∈ lockCodes processingDStarHeader := by rcases hc with rfl | rfl <;> rw [hs] <;> decide
    exact ⟨lockOk_of_header rfl hm (by decide : 0 < 660), {}⟩
  · exact ⟨toSearch_lockOk s, {}⟩

theorem onSearch_lockOk {v : Sample} {s t : State} (h : LockOk s) (hf : s.fsm = lookingForSync)
    (ht : onSearch v s = .ok t) : LockOk t ∧ SameSample s t := by
  have hs := fsStep_searchesOn v s
  unfold onSearch at ht
  cases hr : (fsStep v s).2 with
  | none =>
    rw [hr] at ht
    cases ht
    exact ⟨lockOk_of_search (hs.fsm.trans hf) (hs.unlocked (unlocked_of_search h hf)), hs.toSameSample⟩
  | noSync =>
    rw [hr] at ht
    cases ht
    exact ⟨toSearch_lockOk _, hs.toSameSample.trans {}⟩
  | sync code =>
    rw [hr] at ht
    obtain ⟨hl, he⟩ := @enter_lockOk code _ _ rfl ht
    exact ⟨hl, hs.toSameSample.trans ⟨he.sidx, he.cnt⟩⟩

/-! ### The steps of the protocol states -/

theorem dmrvStep_lockOk {s t : State} (h : LockOk s) (ht : dmrvStep s = .ok t) : LockOk t ∧ SameSample s t := by
  obtain ⟨u, d, hu, rfl⟩ := dmrvStep_ok ht
  obtain ⟨-, -, rfl, -⟩ := dbtNext_ok_iff.mp hu
  obtain ⟨dmr, events, hp, -, -⟩ :=
    process_frame s.dmr.symbolIndex.toNat d (histPush (slice s.car.synctype s.car s.str.symbol).raw s)
  simp only [histPush_dmr, hp]
  split
  · exact ⟨toSearch_lockOk _, {}⟩
  · exact ⟨⟨h.lock, h.dstar, h.header⟩, {}⟩

theorem dmrdStep_lockOk {s t : State} (h : LockOk s) (ht : dmrdStep s = .ok t) : LockOk t ∧ SameSample s t := by
  obtain ⟨u, d, hu, rfl⟩ := dmrdStep_ok ht
  obtain ⟨-, -, rfl, -⟩ := dbtNext_ok_iff.mp hu
  dsimp only
  split
  · exact ⟨toSearch_lockOk _, {}⟩
  · exact ⟨⟨h.lock, h.dstar, h.header⟩, {}⟩

/-- `intake` writes the history and `bitbuf` (R177). -/
theorem intake_frame {s t : State} {b : Bool} (h : intake s = .ok (t, b)) :
    ∃ hist buf, t = { s with hist := hist, dst.bitbuf := buf } := by
  obtain ⟨u, d, hu, -, rfl⟩ := intake_ok h
  obtain ⟨-, -, rfl, -⟩ := dbtNext_ok_iff.mp hu
  exact ⟨_, _, rfl⟩

theorem dstvBit_lockOk {s t : State} (hl : configLegal s.cfg = true) (h : LockOk s) (hf : s.fsm = processingDStar)
    (ht : dstvBit s = .ok t) : LockOk t ∧ SameSample s t := by
  have hseg := configLegal_dstarDataSyms hl
  have hs : s.car.synctype ∈ lockCodes processingDStar := hf ▸ h.lock
  obtain ⟨hp, u, b, hu, rfl⟩ := dstvBit_ok ht
  obtain ⟨hist, buf, rfl⟩ := intake_frame hu
  obtain ⟨-, hv⟩ | ⟨-, dfr, events, hv⟩ := voiceBit_cases b { s with hist := hist, dst.bitbuf := buf }
  · rw [hv]
    exact ⟨lockOk_of_dstar hf hs (Nat.add_pos_left (by decide) _), {}⟩
  · have hc := countUp_toNat .dstPos s.dst.dstPos (by omega)
    have hb : (countUp .dstPos s.dst.dstPos).toNat < Config.voiceSegment + s.cfg.dstarDataSyms := by
      unfold Config.voiceSegment
      omega
    rw [hv]
    exact ⟨lockOk_of_dstar hf hs hb, {}⟩

theorem endSegment_lockOk {s : State} (hf : s.fsm = processingDStar) (hs : s.car.synctype ∈ lockCodes processingDStar) :
    LockOk (endSegment s) ∧ SameSample s (endSegment s) := by
  obtain ⟨-, he⟩ | ⟨-, he⟩ := endSegment_cases s
  · rw [he]
    exact ⟨toSearch_lockOk s, {}⟩
  · rw [he]
    exact ⟨lockOk_of_dstar hf hs (Nat.add_pos_left (by decide) _), {}⟩

/-- The evaluation of a data segment begins the next frame or the search, from any position (R184, R186). -/
theorem evaluate_lockOk {s : State} (hf : s.fsm = processingDStar) (hs : s.car.synctype ∈ lockCodes processingDStar) :
    LockOk (evaluate s) ∧ SameSample s (evaluate s) := by
  obtain ⟨-, he⟩ | ⟨-, -, he⟩ | ⟨-, -, he⟩ := evaluate_cases s
  · rw [he]
    refine (endSegment_lockOk ?_ ?_).imp_right fun h => ⟨h.sidx, h.cnt⟩
    exacts [hf, hs]
  · rw [he]
    exact ⟨toSearch_lockOk _, {}⟩
  · rw [he]
    refine (endSegment_lockOk ?_ ?_).imp_right fun h => ⟨h.sidx, h.cnt⟩
    exacts [hf, hs]

theorem dstdBit_lockOk {s t : State} (hl : configLegal s.cfg = true) (h : LockOk s) (hf : s.fsm = processingDStar)
    (ht : dstdBit s = .ok t) : LockOk t ∧ SameSample s t := by
  have hseg := configLegal_dstarDataSyms hl
  have hs : s.car.synctype ∈ lockCodes processingDStar := hf ▸ h.lock
  have hp := h.dstar hf
  obtain ⟨-, u, b, hu, rfl⟩ := dstdBit_ok ht
  obtain ⟨hist, buf, rfl⟩ := intake_frame hu
  unfold Config.voiceSegment at hp
  have hc := countUp_toNat .dstPos s.dst.dstPos (by omega)
  simp only [dataBit]
  split
  · refine (evaluate_lockOk ?_ ?_).imp_right fun h => ⟨h.sidx, h.cnt⟩
    exacts [hf, hs]
  · rename_i hn
    have hb : (countUp .dstPos s.dst.dstPos).toNat < Config.voiceSegment + s.cfg.dstarDataSyms := by
      unfold Config.voiceSegment at hn ⊢
      omega
    exact ⟨lockOk_of_dstar hf hs hb, {}⟩

theorem dsthBit_lockOk {s t : State} (h : LockOk s) (hf : s.fsm = processingDStarHeader) (ht : dsthBit s = .ok t) :
    LockOk t ∧ SameSample s t := by
  have hs : s.car.synctype ∈ lockCodes processingDStarHeader := hf ▸ h.lock
  have hp := h.header hf
  unfold Config.headerSymbols at hp
  have hc := countUp_toNat .hdCnt s.hdr.hdCnt (by omega)
  obtain ⟨u, d, hu, hcase⟩ := dsthBit_ok ht
  obtain ⟨-, -, rfl, -⟩ := dbtNext_ok_iff.mp hu
  obtain ⟨hn, rfl⟩ | ⟨-, w, hw, rfl⟩ := hcase
  · have hb : (countUp .hdCnt s.hdr.hdCnt).toNat < Config.headerSymbols := by
      simp only [histPush_hdr] at hn
      unfold Config.headerSymbols
      omega
    exact ⟨lockOk_of_header hf hs hb, {}⟩
  · obtain ⟨-, rfl⟩ := dsthDecode_ok hw
    exact ⟨toSearch_lockOk _, {}⟩

/-! ### The sample taken in -/

/-- A sample inside the averaging window adds one to the count of the indices passed (R83). -/
theorem windowCount_succ {w : Window} (hw : w.lo ≤ w.hi) (n : Nat) :
    windowCount w (n + 1) = windowCount w n + if w.lo ≤ n ∧ n ≤ w.hi then 1 else 0 := by
  unfold windowCount
  split <;> omega

theorem windowCount_le (w : Window) (n : Nat) : windowCount w n ≤ n := by
  unfold windowCount
  omega

theorem windowCount_zero (w : Window) : windowCount w 0 = 0 := Nat.le_zero.mp (windowCount_le w 0)

theorem accumulate_cnt (v : Sample) (s : State) :
    (accumulate v s).str.cnt =
      if (winOf s.cfg s.car.rfMod).lo ≤ s.str.sidx.toNat ∧ s.str.sidx.toNat ≤ (winOf s.cfg s.car.rfMod).hi then
        countUp .cnt s.str.cnt
      else s.str.cnt := by
  simp only [accumulate]
  split <;> rfl

theorem strIntake_cnt (v : Sample) (sync : Bool) (s : State) :
    (strIntake v sync s).str.cnt =
      if (winOf s.cfg s.car.rfMod).lo ≤ s.str.sidx.toNat ∧ s.str.sidx.toNat ≤ (winOf s.cfg s.car.rfMod).hi then
        countUp .cnt s.str.cnt
      else s.str.cnt :=
  accumulate_cnt (clamp s.car sync v) (track sync (clamp s.car sync v) s)

/-- The counts after a sample is taken in, from those before (R83). -/
theorem strIntake_count {s : State} (h : Inv s) (v : Sample) (sync : Bool)
    (hcnt : s.str.cnt.toNat = windowCount (winOf s.cfg s.car.rfMod) s.str.sidx.toNat) :
    (strIntake v sync s).str.sidx.toNat = s.str.sidx.toNat + 1 ∧
      (strIntake v sync s).str.cnt.toNat = windowCount (winOf s.cfg s.car.rfMod) (s.str.sidx.toNat + 1) := by
  obtain ⟨-, hhi, -, -⟩ := configLegal_sps h.legal
  obtain ⟨hwin, -⟩ := configLegal_window h.legal s.car.rfMod
  have hplen := h.period.plen
  have hin := h.period.sidx
  have hle := windowCount_le (winOf s.cfg s.car.rfMod) s.str.sidx.toNat
  have hsucc := windowCount_succ hwin s.str.sidx.toNat
  refine ⟨by rw [strIntake_sidx, countUp_toNat _ _ (by omega)], ?_⟩
  rw [strIntake_cnt, hsucc]
  split
  · rw [countUp_toNat _ _ (by omega), hcnt]
  · exact hcnt

/-- `STR.PUSH` keeps the count of averaged samples that of the window indices passed (R83, R88). -/
theorem strPush_count {s : State} (h : Inv s) (v : Sample) (sync : Bool)
    (hcnt : s.str.cnt.toNat = windowCount (winOf s.cfg s.car.rfMod) s.str.sidx.toNat) :
    (strPush v sync s).1.str.cnt.toNat = windowCount (winOf s.cfg s.car.rfMod) (strPush v sync s).1.str.sidx.toNat := by
  obtain ⟨hi, hc⟩ := strIntake_count h v sync hcnt
  by_cases hin : (strIntake v sync s).str.sidx.toNat < (strIntake v sync s).str.plen.toNat
  · rw [strPush_inside hin, hc, hi]
  · rw [strPush_boundary hin]
    exact (windowCount_zero _).symm

/-- A symbol is emitted only at a boundary, where the period begins again (R84, R88). -/
theorem strPush_some {s : State} {v y : Sample} {sync : Bool} (h : (strPush v sync s).2 = some y) :
    (strPush v sync s).1.str.sidx = 0 ∧ (strPush v sync s).1.str.cnt = 0 := by
  by_cases hin : (strIntake v sync s).str.sidx.toNat < (strIntake v sync s).str.plen.toNat
  · rw [strPush_inside hin] at h
    cases h
  · rw [strPush_boundary hin]
    exact ⟨rfl, rfl⟩

/-! ### `ORC.PUSH` and `ORC.RESET` -/

/-- Whatever the dispatch word of a state selects, on a state with its lock, keeps the lock consistent and the sample of
the period (R200, R207). -/
theorem selectOperation_lockOk {s u t : State} (ht : selectOperation (dispatchWord s) u = .ok t)
    (hl : configLegal u.cfg = true) (h : LockOk u) (hf : u.fsm = s.fsm) : LockOk t ∧ SameSample u t := by
  obtain ⟨h0, ht⟩ | ⟨-, ht⟩ | ⟨-, ht⟩ | ⟨h3, ht | ht⟩ | ⟨h4, ht⟩ := selectOperation_ok ht
  · exact onSearch_lockOk h (hf.trans h0) ht
  · exact dmrvStep_lockOk h ht
  · exact dmrdStep_lockOk h ht
  · exact dstvBit_lockOk hl h (hf.trans h3) ht
  · exact dstdBit_lockOk hl h (hf.trans h3) ht
  · exact dsthBit_lockOk h (hf.trans h4) ht

/-- A sample inside a period keeps the lock as it is and counts; a symbol restarts the count before its operation. -/
theorem orcPush_hostInv {s t : State} {v : Sample} (h : HostInv s) (ht : orcPush v s = .ok t) : HostInv t := by
  have hinv : Inv { s with events := [] } := h.inv.of_keeps {}
  have hcount := strPush_count hinv v (haveSync s) h.count
  have hlegal := (strPush_inv hinv v (haveSync s)).legal
  have htinv := orcPush_inv h.inv ht
  obtain ⟨str, maj, hp⟩ := strPush_frame v (haveSync s) { s with events := [] }
  obtain ⟨-, hk⟩ | ⟨y, hy, hk⟩ := orcPush_cases v s
  · cases hk.symm.trans ht
    rw [hp] at hcount htinv ⊢
    exact ⟨htinv, h.lock, hcount, h.dstar, h.header⟩
  · obtain ⟨hidx, hcnt⟩ := strPush_some hy
    rw [hp] at hk hidx hcnt hlegal
    obtain ⟨hlock, hsame⟩ := selectOperation_lockOk (hk.symm.trans ht) hlegal ⟨h.lock, h.dstar, h.header⟩ rfl
    have hc : t.str.cnt.toNat = windowCount (winOf t.cfg t.car.rfMod) t.str.sidx.toNat := by
      rw [hsame.cnt, hsame.sidx, hcnt, hidx]
      exact (windowCount_zero _).symm
    exact ⟨htinv, hlock.lock, hc, hlock.dstar, hlock.header⟩

theorem resetWith_lockOk (c : Config) (input : List CommandWord) : LockOk (State.resetWith c input) :=
  lockOk_of_search rfl rfl

theorem resetWith_hostInv {c : Config} (h : configLegal c = true) (input : List CommandWord) :
    HostInv (State.resetWith c input) where
  inv := resetWith_inv h input
  lock := (resetWith_lockOk c input).lock
  count := (windowCount_zero _).symm
  dstar := (resetWith_lockOk c input).dstar
  header := (resetWith_lockOk c input).header

/-- Settles O15: the host issues `ORC.PUSH` and `ORC.RESET` only (R74). -/
theorem hostOperationsKeepTheHostInvariant : Obligations.HostOperationsKeepTheHostInvariant := by
  intro i s t hi h ht
  obtain rfl | ⟨v, rfl⟩ := hi
  · cases (exec_orcReset h.inv.legal).symm.trans ht
    exact resetWith_hostInv h.inv.legal s.input
  · exact orcPush_hostInv h (ok_of_runIn ht)

end Sys2Proof.Machine
end

section
/-! The statements of spec/10_state.md, continued: the registers read only by status influence nothing else. -/

-- One declaration at a time, as in the tests, keeps the memory of the one-text compile small.
set_option Elab.async false

namespace Sys2Proof.Machine

/-! ### The registers read only by status, as one value -/

/-- The registers `eraseStatus` clears. -/
structure StatusRegs where
  maj          : BitVec 2
  carrier      : Bool
  lastsynctype : Ftype
  cach         : Vector Dibit 12
  cach2        : Vector Dibit 12
  sync2        : Vector Dibit 24
  msMode       : Bool
  slotlight    : Vector (BitVec 2) 2
  header       : Vector Byte 41

/-- `s` with other contents in the registers read only by status. -/
def withStatus (r : StatusRegs) (s : State) : State :=
  { s with
    maj.maj := r.maj
    car.carrier := r.carrier, car.lastsynctype := r.lastsynctype
    dmr.cach := r.cach, dmr.cach2 := r.cach2, dmr.sync2 := r.sync2
    dmr.msMode := r.msMode, dmr.slotlight := r.slotlight
    hdr.header := r.header }

/-- The contents of the registers read only by status. -/
def statusOf (s : State) : StatusRegs where
  maj := s.maj.maj
  carrier := s.car.carrier
  lastsynctype := s.car.lastsynctype
  cach := s.dmr.cach
  cach2 := s.dmr.cach2
  sync2 := s.dmr.sync2
  msMode := s.dmr.msMode
  slotlight := s.dmr.slotlight
  header := s.hdr.header

@[simp] theorem withStatus_cfg (r : StatusRegs) (s : State) : (withStatus r s).cfg = s.cfg := rfl

/-- States that agree in all but these registers differ by the contents of these registers. -/
theorem eq_withStatus {s s' : State} (h : eraseStatus s = eraseStatus s') : s' = withStatus (statusOf s') s :=
  calc s' = withStatus (statusOf s') (eraseStatus s') := rfl
    _ = withStatus (statusOf s') (eraseStatus s) := by rw [h]
    _ = withStatus (statusOf s') s := rfl

/-- An operation whose result, but for the registers read only by status, does not depend on them. -/
def Blind (f : State → State) : Prop := ∀ r s, eraseStatus (f (withStatus r s)) = eraseStatus (f s)

/-- The same of an operation that may be refused: the refusal does not depend on them either. -/
def BlindOrRefused (f : State → Except Refusal State) : Prop :=
  ∀ r s, (f (withStatus r s)).map eraseStatus = (f s).map eraseStatus

theorem Blind.congr {f : State → State} (hf : Blind f) {s s' : State} (h : eraseStatus s' = eraseStatus s) :
    eraseStatus (f s') = eraseStatus (f s) := by
  rw [eq_withStatus h.symm]
  exact hf _ s

theorem BlindOrRefused.congr {f : State → Except Refusal State} (hf : BlindOrRefused f) {s s' : State}
    (h : eraseStatus s' = eraseStatus s) : (f s').map eraseStatus = (f s).map eraseStatus := by
  rw [eq_withStatus h.symm]
  exact hf _ s

/-- A branch that both states take alike. -/
theorem congr_branch {α β : Type} (f : α → β) {p q : Prop} [Decidable p] [Decidable q] {a a' b b' : α} (h : p ↔ q)
    (ha : f a = f a') (hb : f b = f b') : f (if p then a else b) = f (if q then a' else b') := by
  by_cases hp : p
  · rw [if_pos hp, if_pos (h.mp hp), ha]
  · rw [if_neg hp, if_neg (hp ∘ h.mpr), hb]

/-! ### The operations that do not write them -/

theorem accumulate_withStatus (v : Sample) (r : StatusRegs) (s : State) :
    accumulate v (withStatus r s) = withStatus r (accumulate v s) := by
  simp only [accumulate]
  rw [apply_ite (withStatus r)]
  rfl

theorem strIntake_withStatus (v : Sample) (sync : Bool) (r : StatusRegs) (s : State) :
    strIntake v sync (withStatus r s) = withStatus r (strIntake v sync s) :=
  congrArg (fun u : State => { u with str.sidx := countUp .sidx u.str.sidx })
    (accumulate_withStatus (clamp s.car sync v) r (track sync (clamp s.car sync v) s))

theorem modulationWindow_withStatus (r : StatusRegs) (s : State) :
    modulationWindow (withStatus r s) = withStatus r (modulationWindow s) := by
  unfold modulationWindow
  rw [apply_ite (withStatus r)]
  rfl

theorem ageHint_withStatus (r : StatusRegs) (s : State) : ageHint (withStatus r s) = withStatus r (ageHint s) := by
  unfold ageHint
  rw [apply_ite (withStatus r)]
  rfl

theorem expireHint_withStatus (r : StatusRegs) (s : State) :
    expireHint (withStatus r s) = withStatus r (expireHint s) := by
  unfold expireHint
  rw [apply_ite (withStatus r)]
  rfl

theorem searchIntake_withStatus (v : Sample) (r : StatusRegs) (s : State) :
    searchIntake v (withStatus r s) = withStatus r (searchIntake v s) := by
  have hm : modulationWindow (observe v (withStatus r s)) = withStatus r (modulationWindow (observe v s)) :=
    modulationWindow_withStatus r (observe v s)
  unfold searchIntake
  rw [hm]
  exact ageHint_withStatus r (shiftWindow ((searchDibit s v).setWidth 3) (modulationWindow (observe v s)))

/-! ### The search -/

theorem toSearch_blind : Blind toSearch := fun _ _ => rfl

/-- The end of a symbol without a confirmed match, with its result. -/
theorem searchMiss_withStatus (r : StatusRegs) (s : State) :
    eraseStatus (searchMiss (withStatus r s)).1 = eraseStatus (searchMiss s).1 ∧
      (searchMiss (withStatus r s)).2 = (searchMiss s).2 := by
  unfold searchMiss
  rw [expireHint_withStatus]
  generalize expireHint s = u
  exact ⟨congr_branch (fun p : State × SyncResult => eraseStatus p.1) Iff.rfl rfl rfl,
    congr_branch Prod.snd Iff.rfl rfl rfl⟩

theorem twoHit_withStatus (row : SyncRow) (code : Ftype) (r : StatusRegs) (s : State) :
    twoHit row code (withStatus r s) = Prod.map (withStatus r) id (twoHit row code s) := by
  unfold twoHit
  rw [apply_ite (Prod.map (withStatus r) id), apply_ite (Prod.map (withStatus r) id)]
  rfl

/-- `FS.STEP`, with its result. -/
theorem fsStep_withStatus (v : Sample) (r : StatusRegs) (s : State) :
    eraseStatus (fsStep v (withStatus r s)).1 = eraseStatus (fsStep v s).1 ∧
      (fsStep v (withStatus r s)).2 = (fsStep v s).2 := by
  unfold fsStep
  rw [searchIntake_withStatus]
  generalize searchIntake v s = u
  have hm : firstMatch (withStatus r u) = firstMatch u := rfl
  simp only [hm]
  cases firstMatch u with
  | none => exact searchMiss_withStatus r u
  | some row =>
    have ht : twoHit row (codeOf u.cfg row) (recalibrate (withStatus r u)) =
        Prod.map (withStatus r) id (twoHit row (codeOf u.cfg row) (recalibrate u)) :=
      twoHit_withStatus row _ r (recalibrate u)
    simp only [withStatus_cfg, ht]
    generalize twoHit row (codeOf u.cfg row) (recalibrate u) = p
    obtain ⟨w, confirmed⟩ := p
    cases confirmed with
    | true => exact ⟨rfl, rfl⟩
    | false => exact searchMiss_withStatus r w

/-! ### The slots and the entries -/

/-- What `sync_eval` writes of the mute flag and the light for a sync field that reads `f` (R165). -/
def syncLight (f : List Dibit) (s : State) : State :=
  if f = s.cfg.bsData ∨ f = s.cfg.msData then setLight lightData { s with dmr.mute := true }
  else if f = s.cfg.bsVoice ∨ f = s.cfg.msVoice then setLight lightVoice { s with dmr.mute := false }
  else s

/-- What `sync_eval` writes of the mode for a sync field that reads `f` (R165). -/
def syncMode (f : List Dibit) (s : State) : State :=
  if f = s.cfg.msData ∨ f = s.cfg.msVoice then { s with dmr.msMode := true }
  else if f = s.cfg.bsData ∨ f = s.cfg.bsVoice then { s with dmr.msMode := false }
  else s

theorem syncEval_eq (s : State) : syncEval s = syncMode s.dmr.syncf.toList (syncLight s.dmr.syncf.toList s) := rfl

theorem syncLight_blind (f : List Dibit) : Blind (syncLight f) :=
  fun _ _ => congr_branch eraseStatus Iff.rfl rfl (congr_branch eraseStatus Iff.rfl rfl rfl)

theorem syncMode_blind (f : List Dibit) : Blind (syncMode f) :=
  fun _ _ => congr_branch eraseStatus Iff.rfl rfl (congr_branch eraseStatus Iff.rfl rfl rfl)

theorem syncEval_blind : Blind syncEval := by
  intro r s
  rw [syncEval_eq, syncEval_eq]
  exact (syncMode_blind _).congr (syncLight_blind _ r s)

theorem slotOperation_blind (sub : Nat) (d : Dibit) (k : Nat) : Blind (slotOperation sub d k) := by
  intro r s
  unfold slotOperation
  split
  case h_2 => exact congr_branch eraseStatus Iff.rfl rfl rfl
  case h_5 => exact congr_branch eraseStatus Iff.rfl (syncEval_blind.congr rfl) rfl
  case h_6 => exact congr_branch eraseStatus Iff.rfl rfl rfl
  case h_7 => exact congr_branch eraseStatus Iff.rfl rfl rfl
  all_goals rfl

theorem process_blind (idx : Nat) (d : Dibit) : Blind (process idx d) := fun r s => slotOperation_blind _ d _ r s

theorem replay_blind (x : Dibit) (ps : List Nat) : Blind (replay x ps) := by
  induction ps with
  | nil => exact fun _ _ => rfl
  | cons p ps ih => exact fun r s => ih.congr (process_blind p (lookBack s (144 - p) ^^^ x) r s)

theorem dmrvEnter_blind : BlindOrRefused dmrvEnter := by
  intro r s
  unfold dmrvEnter
  generalize List.range' 54 90 = ps
  refine congr_branch (Except.map eraseStatus) Iff.rfl rfl ?_
  have hb : histBack (withStatus r s) 90 = histBack s 90 := rfl
  rw [hb]
  cases histBack s 90 with
  | error e => rfl
  | ok d =>
    have hr := replay_blind (if s.car.synctype = 11 then 2 else 0) ps r { s with fsm := processingDmrVoice }
    exact congrArg Except.ok (congrArg (fun u : State => { u with dmr.symbolIndex := 144 }) hr)

theorem dmrdEnter_blind : BlindOrRefused dmrdEnter := by
  intro r s
  unfold dmrdEnter
  refine congr_branch (Except.map eraseStatus) Iff.rfl rfl ?_
  have hb : histBack (withStatus r s) 90 = histBack s 90 := rfl
  rw [hb]
  cases histBack s 90 with
  | error e => rfl
  | ok d =>
    have hreport : Blind fun u =>
        { emit (.dmrData u.dmr.currentslot u.dmr.slottype u.dmr.bursttype) u with dmr.dcount := 0 } := fun _ _ => rfl
    have hr : eraseStatus (burstRead (withStatus r s)) = eraseStatus (burstRead s) := rfl
    exact congrArg Except.ok (hreport.congr (syncEval_blind.congr hr))

theorem enter_blind (code : Ftype) : BlindOrRefused (enter code) := by
  intro r s
  unfold enter
  refine congr_branch (Except.map eraseStatus) Iff.rfl (dmrvEnter_blind r s) ?_
  refine congr_branch (Except.map eraseStatus) Iff.rfl (dmrdEnter_blind r s) ?_
  refine congr_branch (Except.map eraseStatus) Iff.rfl rfl ?_
  refine congr_branch (Except.map eraseStatus) Iff.rfl rfl rfl

theorem react_blind (res : SyncResult) : BlindOrRefused (react res) := by
  intro r s
  cases res with
  | none => rfl
  | noSync => rfl
  | sync code => exact (enter_blind code).congr rfl

theorem onSearch_blind (v : Sample) : BlindOrRefused (onSearch v) := by
  intro r s
  obtain ⟨hs, hr⟩ := fsStep_withStatus v r s
  unfold onSearch
  rw [hr]
  exact (react_blind _).congr hs

/-! ### The protocol states -/

/-- A lock's next dibit depends on none of these registers, and its push leaves them as they are. -/
theorem dbtNext_withStatus (r : StatusRegs) (s : State) :
    dbtNext (withStatus r s) = (dbtNext s).map fun p => (withStatus r p.1, p.2) := by
  unfold dbtNext
  rw [apply_ite (Except.map fun p : State × Dibit => (withStatus r p.1, p.2)),
    apply_ite (Except.map fun p : State × Dibit => (withStatus r p.1, p.2))]
  rfl

theorem dmrvStep_blind : BlindOrRefused dmrvStep := by
  intro r s
  unfold dmrvStep
  rw [dbtNext_withStatus]
  cases dbtNext s with
  | error e => rfl
  | ok p =>
    have hcount : Blind fun u =>
        let u : State := { u with dmr.symbolIndex := countUp .symbolIndex u.dmr.symbolIndex }
        if u.cfg.dmrVoiceEnd ≤ u.dmr.symbolIndex.toNat then takeCondition .frameDone u else u :=
      fun _ _ => congr_branch eraseStatus Iff.rfl rfl rfl
    exact congrArg Except.ok (hcount.congr (process_blind _ p.2 r p.1))

theorem dmrdStep_blind : BlindOrRefused dmrdStep := by
  intro r s
  unfold dmrdStep
  rw [dbtNext_withStatus]
  cases dbtNext s with
  | error e => rfl
  | ok p => exact congrArg Except.ok (congr_branch eraseStatus Iff.rfl rfl rfl)

theorem intake_withStatus (r : StatusRegs) (s : State) :
    intake (withStatus r s) = (intake s).map fun p => (withStatus r p.1, p.2) := by
  unfold intake
  rw [dbtNext_withStatus]
  cases dbtNext s <;> rfl

theorem voiceBit_blind (b : Bool) : Blind (voiceBit b) := by
  intro r s
  unfold voiceBit
  refine congr_branch eraseStatus Iff.rfl rfl ?_
  exact congr_branch eraseStatus Iff.rfl rfl rfl

theorem dstvBit_blind : BlindOrRefused dstvBit := by
  intro r s
  unfold dstvBit
  refine congr_branch (Except.map eraseStatus) Iff.rfl rfl ?_
  rw [intake_withStatus]
  cases intake s with
  | error e => rfl
  | ok p => exact congrArg Except.ok (voiceBit_blind p.2 r p.1)

theorem endSegment_blind : Blind endSegment := fun _ _ => congr_branch eraseStatus Iff.rfl rfl rfl

theorem evaluate_blind : Blind evaluate := by
  intro r s
  unfold evaluate
  refine congr_branch eraseStatus Iff.rfl (endSegment_blind.congr rfl) ?_
  exact congr_branch eraseStatus Iff.rfl rfl (endSegment_blind.congr rfl)

theorem dataBit_blind (b : Bool) : Blind (dataBit b) :=
  fun _ _ => congr_branch eraseStatus Iff.rfl (evaluate_blind.congr rfl) rfl

theorem dstdBit_blind : BlindOrRefused dstdBit := by
  intro r s
  unfold dstdBit
  refine congr_branch (Except.map eraseStatus) Iff.rfl rfl ?_
  rw [intake_withStatus]
  cases intake s with
  | error e => rfl
  | ok p => exact congrArg Except.ok (dataBit_blind p.2 r p.1)

theorem dsthDecode_blind : BlindOrRefused dsthDecode := by
  intro r s
  unfold dsthDecode
  refine congr_branch (Except.map eraseStatus) Iff.rfl rfl ?_
  have hb : histBack (withStatus r s) 660 = histBack s 660 := rfl
  rw [hb]
  cases histBack s 660 with
  | error e => rfl
  | ok d =>
    have hh : headerOf (withStatus r s).cfg (headerBits (withStatus r s)) = headerOf s.cfg (headerBits s) := rfl
    simp only [hh]
    generalize headerOf s.cfg (headerBits s) = h
    rfl

/-- The end of the header block: decode, then restart the search (R189, R222). -/
def headerEnd (s : State) : Except Refusal State := (dsthDecode s).map (takeCondition .frameDone)

theorem headerEnd_blind : BlindOrRefused headerEnd := by
  intro r s
  have hd := dsthDecode_blind r s
  unfold headerEnd
  generalize dsthDecode (withStatus r s) = x at hd
  generalize dsthDecode s = y at hd
  cases x with
  | error e =>
    cases y with
    | error e' => exact hd
    | ok t => cases hd
  | ok t' =>
    cases y with
    | error e => cases hd
    | ok t => exact congrArg Except.ok (toSearch_blind.congr (Except.ok.inj hd))

/-- `DSTH.BIT` counts the dibit and ends the block at its last symbol (R189). -/
theorem dsthBit_eq (s : State) : dsthBit s = (dbtNext s).bind fun p =>
    let u : State := { p.1 with hdr.hdCnt := countUp .hdCnt p.1.hdr.hdCnt }
    if u.hdr.hdCnt.toNat = Config.headerSymbols then headerEnd u else .ok u := by
  unfold dsthBit headerEnd
  cases dbtNext s with
  | error e => rfl
  | ok p =>
    simp only [Except.bind]
    split
    · cases dsthDecode _ <;> rfl
    · rfl

theorem dsthBit_blind : BlindOrRefused dsthBit := by
  intro r s
  rw [dsthBit_eq, dsthBit_eq, dbtNext_withStatus]
  cases dbtNext s with
  | error e => rfl
  | ok p =>
    refine congr_branch (Except.map eraseStatus) Iff.rfl ?_ rfl
    exact headerEnd_blind r { p.1 with hdr.hdCnt := countUp .hdCnt p.1.hdr.hdCnt }

/-! ### `ORC.PUSH` -/

theorem strPush_withStatus (v : Sample) (sync : Bool) (r : StatusRegs) (s : State) :
    eraseStatus (strPush v sync (withStatus r s)).1 = eraseStatus (strPush v sync s).1 ∧
      (strPush v sync (withStatus r s)).2 = (strPush v sync s).2 := by
  unfold strPush
  rw [strIntake_withStatus]
  generalize strIntake v sync s = u
  exact ⟨congr_branch (fun p : State × Option Sample => eraseStatus p.1) Iff.rfl rfl rfl,
    congr_branch Prod.snd Iff.rfl rfl rfl⟩

theorem selectOperation_blind (word : BitVec 7) : BlindOrRefused (selectOperation word) := by
  intro r s
  unfold selectOperation
  refine congr_branch (Except.map eraseStatus) Iff.rfl (onSearch_blind _ r s) ?_
  refine congr_branch (Except.map eraseStatus) Iff.rfl (dmrvStep_blind r s) ?_
  refine congr_branch (Except.map eraseStatus) Iff.rfl (dmrdStep_blind r s) ?_
  refine congr_branch (Except.map eraseStatus) Iff.rfl ?_ ?_
  · exact congr_branch (Except.map eraseStatus) Iff.rfl (dstvBit_blind r s) (dstdBit_blind r s)
  · exact congr_branch (Except.map eraseStatus) Iff.rfl (dsthBit_blind r s) rfl

/-- `ORC.PUSH` is blind to the registers read only by status. -/
theorem orcPush_blind (v : Sample) : BlindOrRefused (orcPush v) := by
  intro r s
  have hp : eraseStatus (strPush v (haveSync (withStatus r s)) { withStatus r s with events := [] }).1 =
        eraseStatus (strPush v (haveSync s) { s with events := [] }).1 ∧
      (strPush v (haveSync (withStatus r s)) { withStatus r s with events := [] }).2 =
        (strPush v (haveSync s) { s with events := [] }).2 :=
    strPush_withStatus v (haveSync s) r { s with events := [] }
  unfold orcPush
  generalize strPush v (haveSync (withStatus r s)) { withStatus r s with events := [] } = p at hp
  generalize strPush v (haveSync s) { s with events := [] } = q at hp
  obtain ⟨t', y'⟩ := p
  obtain ⟨t, y⟩ := q
  obtain ⟨he, rfl⟩ : eraseStatus t' = eraseStatus t ∧ y' = y := hp
  cases y' with
  | none => exact congrArg Except.ok he
  | some sym =>
    have hs := congrArg (fun u : State => { u with str.symbol := sym }) he
    exact (selectOperation_blind (dispatchWord s)).congr hs

/-- Settles O21: the second state is the first with other contents in those registers, to which the step is blind. -/
theorem statusOnlyRegistersInfluenceNothing : Obligations.StatusOnlyRegistersInfluenceNothing := by
  intro s s' t v he hlight ht
  obtain ⟨hready, hk⟩ := runIn_next_iff.mp (show runIn s (orcPush v s) = .next t from ht)
  obtain ⟨hlegal, hcfg, hfsm, hmod, hwindow, -, hlidx, hwp⟩ := (ready_iff s).mp hready
  have hready' : Ready s' := by
    rw [eq_withStatus he, ready_iff]
    exact ⟨hlegal, hcfg, hfsm, hmod, hwindow, hlight, hlidx, hwp⟩
  have hb : (orcPush v s').map eraseStatus = .ok (eraseStatus t) := by
    rw [(orcPush_blind v).congr he.symm, hk]
    rfl
  cases hk' : orcPush v s' with
  | error r => rw [hk'] at hb; cases hb
  | ok t' =>
    rw [hk'] at hb
    have ht' : eraseStatus t' = eraseStatus t := Except.ok.inj hb
    have hev : (eraseStatus t).events = (eraseStatus t').events := congrArg State.events ht'.symm
    exact ⟨t', runIn_next_iff.mpr ⟨hready', hk'⟩, ht'.symm, hev⟩

end Sys2Proof.Machine
end

section
/-! The statements of spec/10_state.md, continued: the symbol of a whole period is the mean of its window. -/

-- One declaration at a time, as in the tests, keeps the memory of the one-text compile small.
set_option Elab.async false

namespace Sys2Proof.Machine

/-! ### Sums and means of samples -/

theorem sampleSum_append (xs ys : List Sample) : sampleSum (xs ++ ys) = sampleSum xs + sampleSum ys := by
  induction xs with
  | nil => simp [sampleSum]
  | cons x xs ih => simp only [List.cons_append, sampleSum, ih]; omega

theorem sampleSum_bounds {ws : List Sample} {lo hi : Int} (h : ∀ x ∈ ws, lo ≤ x.toInt ∧ x.toInt ≤ hi) :
    lo * ws.length ≤ sampleSum ws ∧ sampleSum ws ≤ hi * ws.length := by
  induction ws with
  | nil => simp [sampleSum]
  | cons x ws ih =>
    obtain ⟨hlo, hhi⟩ := ih fun y hy => h y (List.mem_cons_of_mem x hy)
    have hx := h x List.mem_cons_self
    simp only [sampleSum, List.length_cons, Nat.cast_add, Nat.cast_one, mul_add, mul_one]
    omega

/-- A quotient truncated toward zero stays between integer bounds of the exact one (R85). -/
theorem tdiv_bounds {a n lo hi : Int} (hn : 0 < n) (hlo : lo * n ≤ a) (hhi : a ≤ hi * n) :
    lo ≤ a.tdiv n ∧ a.tdiv n ≤ hi := by
  have hr := Int.mul_tdiv_add_tmod a n
  have hlt := Int.tmod_lt_of_pos a hn
  have hgt := Int.lt_tmod_of_pos a hn
  constructor
  · have h : n * lo < n * (a.tdiv n + 1) := by linarith
    exact Int.lt_add_one_iff.mp (lt_of_mul_lt_mul_left h hn.le)
  · have h : n * a.tdiv n < n * (hi + 1) := by linarith
    exact Int.lt_add_one_iff.mp (lt_of_mul_lt_mul_left h hn.le)

/-- The truncated mean of samples lies between any bounds of theirs. -/
theorem mean_bounds {ws : List Sample} (hne : 0 < ws.length) {lo hi : Int}
    (h : ∀ x ∈ ws, lo ≤ x.toInt ∧ x.toInt ≤ hi) :
    lo ≤ (sampleSum ws).tdiv ws.length ∧ (sampleSum ws).tdiv ws.length ≤ hi :=
  tdiv_bounds (by omega) (sampleSum_bounds h).1 (sampleSum_bounds h).2

theorem sample_bounds (x : Sample) : -32768 ≤ x.toInt ∧ x.toInt ≤ 32767 := by
  have hlo := BitVec.le_toInt x
  have hhi := BitVec.toInt_lt (x := x)
  omega

/-! ### The samples of a window -/

theorem windowSamples_append (w : Window) (i : Nat) (xs ys : List Sample) :
    windowSamples w i (xs ++ ys) = windowSamples w i xs ++ windowSamples w (i + xs.length) ys := by
  induction xs generalizing i with
  | nil => rfl
  | cons x xs ih =>
    have hi : i + (xs.length + 1) = i + 1 + xs.length := by omega
    simp only [List.cons_append, windowSamples, ih, List.length_cons, hi]
    split <;> rfl

/-- Of the samples from index `i` on, as many are in the window as it has indices among theirs. -/
theorem windowSamples_length {w : Window} (hw : w.lo ≤ w.hi) (i : Nat) (xs : List Sample) :
    windowCount w i + (windowSamples w i xs).length = windowCount w (i + xs.length) := by
  induction xs generalizing i with
  | nil => rfl
  | cons x xs ih =>
    have hi : i + (xs.length + 1) = i + 1 + xs.length := by omega
    rw [List.length_cons, hi, ← ih (i + 1), windowCount_succ hw]
    simp only [windowSamples]
    split
    · rw [List.length_cons]; omega
    · omega

/-- A window that begins and ends inside a period has samples of it. -/
theorem windowSamples_pos {w : Window} (hw : w.lo ≤ w.hi) {xs : List Sample} (h : w.hi < xs.length) :
    0 < (windowSamples w 0 xs).length := by
  have hlen := windowSamples_length hw 0 xs
  unfold windowCount at hlen
  omega

/-! ### A run of samples inside a period -/

/-- `t` is `n` samples further in the period of `s`, and the samples `ws` were averaged on the way. -/
structure Advanced (n : Nat) (ws : List Sample) (s t : State) : Prop where
  car : t.car = s.car
  cfg : t.cfg = s.cfg
  plen : t.str.plen = s.str.plen
  sidx : t.str.sidx.toNat = s.str.sidx.toNat + n
  cnt : t.str.cnt.toNat = s.str.cnt.toNat + ws.length
  sum : t.str.sum.toInt = s.str.sum.toInt + sampleSum ws

theorem Advanced.trans {m n : Nat} {ws ws' : List Sample} {s t u : State} (h : Advanced m ws s t)
    (h' : Advanced n ws' t u) : Advanced (m + n) (ws ++ ws') s u where
  car := h'.car.trans h.car
  cfg := h'.cfg.trans h.cfg
  plen := h'.plen.trans h.plen
  sidx := by rw [h'.sidx, h.sidx, Nat.add_assoc]
  cnt := by rw [h'.cnt, h.cnt, List.length_append, Nat.add_assoc]
  sum := by rw [h'.sum, h.sum, sampleSum_append, Int.add_assoc]

/-- The count and the sum are those of at most as many samples as the period has had, so that they fit (R36). -/
structure SumsFit (s : State) : Prop where
  cnt : s.str.cnt.toNat ≤ s.str.sidx.toNat
  lo : -32768 * (s.str.sidx.toNat : Int) ≤ s.str.sum.toInt
  hi : s.str.sum.toInt ≤ 32768 * (s.str.sidx.toNat : Int)

theorem accumulate_sum (v : Sample) (s : State) :
    (accumulate v s).str.sum =
      if (winOf s.cfg s.car.rfMod).lo ≤ s.str.sidx.toNat ∧ s.str.sidx.toNat ≤ (winOf s.cfg s.car.rfMod).hi then
        fitS 32 .sum (s.str.sum.toInt + v.toInt)
      else s.str.sum := by
  simp only [accumulate]
  split <;> rfl

theorem strIntake_sum (v : Sample) (sync : Bool) (s : State) :
    (strIntake v sync s).str.sum =
      if (winOf s.cfg s.car.rfMod).lo ≤ s.str.sidx.toNat ∧ s.str.sidx.toNat ≤ (winOf s.cfg s.car.rfMod).hi then
        fitS 32 .sum (s.str.sum.toInt + (clamp s.car sync v).toInt)
      else s.str.sum :=
  accumulate_sum (clamp s.car sync v) (track sync (clamp s.car sync v) s)

/-- One sample before the last index of `sidx` advances the period by it (R80 to R83). -/
theorem strIntake_advanced {s : State} (h : SumsFit s) (hi : s.str.sidx.toNat + 1 < 2 ^ 9) (v : Sample) (sync : Bool) :
    Advanced 1 (windowSamples (winOf s.cfg s.car.rfMod) s.str.sidx.toNat [clamp s.car sync v]) s (strIntake v sync s) ∧
      SumsFit (strIntake v sync s) := by
  have hx := sample_bounds (clamp s.car sync v)
  obtain ⟨hcnt, hlo, hhi⟩ := h
  have hsidx : (strIntake v sync s).str.sidx.toNat = s.str.sidx.toNat + 1 := by
    rw [strIntake_sidx, countUp_toNat _ _ hi]
  by_cases hw : (winOf s.cfg s.car.rfMod).lo ≤ s.str.sidx.toNat ∧ s.str.sidx.toNat ≤ (winOf s.cfg s.car.rfMod).hi
  · have hc : (strIntake v sync s).str.cnt.toNat = s.str.cnt.toNat + 1 := by
      rw [strIntake_cnt, if_pos hw, countUp_toNat _ _ (by omega)]
    have hs : (strIntake v sync s).str.sum.toInt = s.str.sum.toInt + (clamp s.car sync v).toInt := by
      rw [strIntake_sum, if_pos hw, fitS_toInt _ (by omega) (by omega) (by omega)]
    have hws : windowSamples (winOf s.cfg s.car.rfMod) s.str.sidx.toNat [clamp s.car sync v] = [clamp s.car sync v] :=
      if_pos hw
    rw [hws]
    refine ⟨⟨strIntake_car .., strIntake_cfg .., strIntake_plen .., hsidx, hc, ?_⟩, ?_, ?_, ?_⟩
    · rw [hs]; simp [sampleSum]
    all_goals omega
  · have hc : (strIntake v sync s).str.cnt.toNat = s.str.cnt.toNat := by rw [strIntake_cnt, if_neg hw]
    have hs : (strIntake v sync s).str.sum.toInt = s.str.sum.toInt := by rw [strIntake_sum, if_neg hw]
    have hws : windowSamples (winOf s.cfg s.car.rfMod) s.str.sidx.toNat [clamp s.car sync v] = [] := if_neg hw
    rw [hws]
    refine ⟨⟨strIntake_car .., strIntake_cfg .., strIntake_plen .., hsidx, hc, ?_⟩, ?_, ?_, ?_⟩
    · rw [hs]; simp [sampleSum]
    all_goals omega

/-- Samples short of the end of the period emit nothing and are averaged where the window has their index (R84). -/
theorem strRun_inside {s : State} (h : SumsFit s) (sync : Bool) (l : List Sample)
    (hl : s.str.sidx.toNat + l.length < s.str.plen.toNat) :
    (strRun sync l s).2 = [] ∧ SumsFit (strRun sync l s).1 ∧
      Advanced l.length (windowSamples (winOf s.cfg s.car.rfMod) s.str.sidx.toNat (l.map (clamp s.car sync))) s
        (strRun sync l s).1 := by
  induction l generalizing s with
  | nil => exact ⟨rfl, h, rfl, rfl, rfl, rfl, rfl, (Int.add_zero _).symm⟩
  | cons v l ih =>
    have hplen := s.str.plen.isLt
    rw [List.length_cons] at hl
    obtain ⟨ha, hf⟩ := strIntake_advanced h (by omega) v sync
    have hp : strPush v sync s = (strIntake v sync s, none) := strPush_inside (by rw [ha.sidx, ha.plen]; omega)
    obtain ⟨hnone, hfit, hadv⟩ := ih hf (by rw [ha.sidx, ha.plen]; omega)
    rw [ha.cfg, ha.car, ha.sidx] at hadv
    have hws := windowSamples_append (winOf s.cfg s.car.rfMod) s.str.sidx.toNat [clamp s.car sync v]
      (l.map (clamp s.car sync))
    have hlen : (v :: l).length = 1 + l.length := by rw [List.length_cons]; omega
    simp only [strRun, hp, hnone]
    exact ⟨rfl, hfit, hlen ▸ hws ▸ ha.trans hadv⟩

theorem strRun_append (sync : Bool) (a b : List Sample) (s : State) :
    strRun sync (a ++ b) s =
      ((strRun sync b (strRun sync a s).1).1, (strRun sync a s).2 ++ (strRun sync b (strRun sync a s).1).2) := by
  induction a generalizing s with
  | nil => rfl
  | cons v a ih => simp only [List.cons_append, strRun, ih, List.append_assoc]

/-- A whole period emits the truncated mean of the samples averaged (R85). -/
theorem strRun_period {s : State} (h : SumsFit s) (sync : Bool) (l : List Sample) (v : Sample)
    (hl : s.str.sidx.toNat + l.length + 1 = s.str.plen.toNat) :
    ∃ u, (strRun sync (l ++ [v]) s).2 = [average u] ∧
      Advanced (l.length + 1)
        (windowSamples (winOf s.cfg s.car.rfMod) s.str.sidx.toNat ((l ++ [v]).map (clamp s.car sync))) s u := by
  have hplen := s.str.plen.isLt
  obtain ⟨hnone, hfit, hadv⟩ := strRun_inside h sync l (by omega)
  obtain ⟨hlast, -⟩ := strIntake_advanced hfit (by rw [hadv.sidx]; omega) v sync
  have hend : ¬ (strIntake v sync (strRun sync l s).1).str.sidx.toNat <
      (strIntake v sync (strRun sync l s).1).str.plen.toNat := by
    rw [hlast.sidx, hlast.plen, hadv.sidx, hadv.plen]
    omega
  rw [hadv.cfg, hadv.car, hadv.sidx] at hlast
  refine ⟨strIntake v sync (strRun sync l s).1, ?_, ?_⟩
  · rw [strRun_append, hnone]
    simp only [strRun, strPush_boundary hend, List.nil_append, Option.toList_some, List.append_nil]
  · rw [List.map_append, windowSamples_append, List.length_map]
    exact hadv.trans hlast

theorem average_of_sums {u : State} {ws : List Sample} (hne : 0 < ws.length) (hcnt : u.str.cnt.toNat = ws.length)
    (hsum : u.str.sum.toInt = sampleSum ws) : (average u).toInt = (sampleSum ws).tdiv ws.length := by
  have hb := mean_bounds hne fun x _ => sample_bounds x
  have hc : u.str.cnt ≠ 0 := by
    intro h0
    rw [h0] at hcnt
    exact absurd hcnt hne.ne
  unfold average
  rw [if_neg hc, hsum, hcnt]
  exact fitS_toInt _ (by omega) (by omega) (by omega)

/-- Settles O24: the last sample of the period emits the mean, whose window a legal configuration keeps inside the
period. -/
theorem periodSymbolIsTheWindowMean : Obligations.PeriodSymbolIsTheWindowMean := by
  intro s sync l hready hidx hsum hcnt hpos hlen hsps ws
  have h0 : s.str.sidx.toNat = 0 := by rw [hidx]; rfl
  have hc0 : s.str.cnt.toNat = 0 := by rw [hcnt]; rfl
  have hs0 : s.str.sum.toInt = 0 := by rw [hsum]; rfl
  have hfit : SumsFit s := ⟨by omega, by omega, by omega⟩
  obtain ⟨hlo, hhi⟩ := configLegal_window hready.legal s.car.rfMod
  have hne : 0 < ws.length := windowSamples_pos hlo (by rw [List.length_map]; omega)
  obtain rfl | ⟨init, v, rfl⟩ := List.eq_nil_or_concat' l
  · exact absurd hpos (by decide)
  rw [List.length_append, List.length_singleton] at hlen
  obtain ⟨u, hu, ha⟩ := strRun_period hfit sync init v (by omega)
  rw [h0] at ha
  have hcu : u.str.cnt.toNat = ws.length := by rw [ha.cnt, hc0, Nat.zero_add]
  have hsu : u.str.sum.toInt = sampleSum ws := by rw [ha.sum, hs0, Int.zero_add]
  have hmean := average_of_sums hne hcu hsu
  refine ⟨average u, hu, fun n hn => ?_, hne, hmean, fun lo hi hb => ?_⟩
  · refine (strRun_inside hfit sync _ ?_).1
    rw [List.length_append, List.length_singleton] at hn
    rw [List.length_take, List.length_append, List.length_singleton]
    omega
  · rw [hmean]
    exact mean_bounds hne hb

end Sys2Proof.Machine
end

section
/-! The statements of spec/10_state.md, continued: the status and configuration registers by number. -/

-- One declaration at a time, as in the tests, keeps the memory of the one-text compile small.
set_option Elab.async false

namespace Sys2Proof.Machine

/-! ### Bits of a concatenation -/

theorem getLsbD_append_low {v w : Nat} (x : BitVec v) (y : BitVec w) {i : Nat} (h : i < w) :
    (x ++ y).getLsbD i = y.getLsbD i := by
  rw [BitVec.getLsbD_append, if_pos h]

theorem getLsbD_append_high {v w : Nat} (x : BitVec v) (y : BitVec w) {i : Nat} (h : w ≤ i) :
    (x ++ y).getLsbD i = x.getLsbD (i - w) := by
  rw [BitVec.getLsbD_append, if_neg (Nat.not_lt.mpr h)]

theorem flag_getLsbD (b : Bool) : (flag b).getLsbD 0 = b := by
  cases b <;> rfl

/-! ### The status registers (R29) -/

theorem regS0_fields (s : State) :
    (regS0 s).extractLsb' 0 6 = s.car.synctype ∧ (regS0 s).extractLsb' 6 6 = s.car.lastsynctype ∧
      (regS0 s).extractLsb' 12 2 = s.car.rfMod ∧ (regS0 s).getLsbD 14 = s.car.carrier ∧
      (regS0 s).getLsbD 15 = decide (s.fsm ≠ 0) := by
  unfold regS0
  refine ⟨?_, ?_, ?_, ?_, ?_⟩
  · rw [BitVec.extractLsb'_append_eq_of_add_le (by omega), BitVec.extractLsb'_eq_self]
  · rw [BitVec.extractLsb'_append_eq_of_le (by omega), BitVec.extractLsb'_append_eq_of_add_le (by omega),
      BitVec.extractLsb'_eq_self]
  · iterate 2 rw [BitVec.extractLsb'_append_eq_of_le (by omega)]
    rw [BitVec.extractLsb'_append_eq_of_add_le (by omega), BitVec.extractLsb'_eq_self]
  · iterate 3 rw [getLsbD_append_high _ _ (by omega)]
    rw [getLsbD_append_low _ _ (by omega), flag_getLsbD]
  · iterate 4 rw [getLsbD_append_high _ _ (by omega)]
    exact flag_getLsbD _

theorem regS1_fields (s : State) :
    (regS1 s).getLsbD 0 = s.dmr.currentslot ∧ (regS1 s).getLsbD 1 = s.dmr.mute ∧ (regS1 s).getLsbD 2 = s.dmr.msMode ∧
      (regS1 s).extractLsb' 3 2 = s.dmr.slotlight[0] ∧ (regS1 s).extractLsb' 5 2 = s.dmr.slotlight[1] ∧
      (regS1 s).extractLsb' 7 4 = s.dmr.slottype ∧ (regS1 s).extractLsb' 11 4 = s.dmr.bursttype ∧
      (regS1 s).getLsbD 15 = false := by
  unfold regS1
  refine ⟨?_, ?_, ?_, ?_, ?_, ?_, ?_, ?_⟩
  · rw [getLsbD_append_low _ _ (by omega), flag_getLsbD]
  · rw [getLsbD_append_high _ _ (by omega), getLsbD_append_low _ _ (by omega), flag_getLsbD]
  · iterate 2 rw [getLsbD_append_high _ _ (by omega)]
    rw [getLsbD_append_low _ _ (by omega), flag_getLsbD]
  · iterate 3 rw [BitVec.extractLsb'_append_eq_of_le (by omega)]
    rw [BitVec.extractLsb'_append_eq_of_add_le (by omega), BitVec.extractLsb'_eq_self]
  · iterate 4 rw [BitVec.extractLsb'_append_eq_of_le (by omega)]
    rw [BitVec.extractLsb'_append_eq_of_add_le (by omega), BitVec.extractLsb'_eq_self]
  · iterate 5 rw [BitVec.extractLsb'_append_eq_of_le (by omega)]
    rw [BitVec.extractLsb'_append_eq_of_add_le (by omega), BitVec.extractLsb'_eq_self]
  · iterate 6 rw [BitVec.extractLsb'_append_eq_of_le (by omega)]
    rw [BitVec.extractLsb'_append_eq_of_add_le (by omega), BitVec.extractLsb'_eq_self]
  · iterate 7 rw [getLsbD_append_high _ _ (by omega)]
    rfl

theorem regS2_fields (s : State) :
    (regS2 s).extractLsb' 0 8 = s.dst.miss ∧ (regS2 s).getLsbD 8 = s.dst.dfirst ∧ (regS2 s).extractLsb' 9 7 = 0 := by
  unfold regS2
  refine ⟨?_, ?_, ?_⟩
  · rw [BitVec.extractLsb'_append_eq_of_add_le (by omega), BitVec.extractLsb'_eq_self]
  · rw [getLsbD_append_high _ _ (by omega), getLsbD_append_low _ _ (by omega), flag_getLsbD]
  · iterate 2 rw [BitVec.extractLsb'_append_eq_of_le (by omega)]
    rfl

theorem regS8_fields (s : State) :
    (regS8 s).extractLsb' 0 3 = s.fsm ∧ (regS8 s).extractLsb' 3 2 = s.maj.maj ∧ (regS8 s).extractLsb' 5 11 = 0 := by
  unfold regS8
  refine ⟨?_, ?_, ?_⟩
  · rw [BitVec.extractLsb'_append_eq_of_add_le (by omega), BitVec.extractLsb'_eq_self]
  · rw [BitVec.extractLsb'_append_eq_of_le (by omega), BitVec.extractLsb'_append_eq_of_add_le (by omega),
      BitVec.extractLsb'_eq_self]
  · iterate 2 rw [BitVec.extractLsb'_append_eq_of_le (by omega)]
    rfl

/-! ### The configuration registers (R24, R25) -/

/-- A register of two bytes given as numbers that fit them. -/
theorem twoBytes_fields {hi lo : Nat} (hhi : hi < 256) (hlo : lo < 256) :
    ((BitVec.ofNat 8 hi ++ BitVec.ofNat 8 lo).extractLsb' 0 8).toNat = lo ∧
      ((BitVec.ofNat 8 hi ++ BitVec.ofNat 8 lo).extractLsb' 8 8).toNat = hi := by
  constructor
  · rw [BitVec.extractLsb'_append_eq_of_add_le (by omega), BitVec.extractLsb'_eq_self]
    exact Nat.mod_eq_of_lt hlo
  · rw [BitVec.extractLsb'_append_eq_of_le (by omega), BitVec.extractLsb'_eq_self]
    exact Nat.mod_eq_of_lt hhi

/-- The bounds of a legal window are bytes (R5). -/
theorem configLegal_window_lt {c : Config} (h : configLegal c = true) (rf : BitVec 2) :
    (winOf c rf).hi < 256 ∧ (winOf c rf).lo < 256 := by
  obtain ⟨-, hsps, -, -⟩ := configLegal_sps h
  obtain ⟨hlo, hhi⟩ := configLegal_window h rf
  omega

/-- The modulation threshold of a legal configuration is a 16-bit number (R5). -/
theorem configLegal_modThreshold {c : Config} (h : configLegal c = true) : c.modThreshold ≤ 65535 := by
  simp only [configLegal, Bool.and_eq_true, decide_eq_true_eq] at h
  tauto

/-- The flags of C0, each in the bit its table gives it. -/
theorem regC0_fields (c : Config) :
    [0, 1, 2, 3, 4, 5, 6, 7, 8, 9, 10, 11].map (regC0 c).getLsbD =
        [c.enP25p1, c.enX2tdma, c.enDmr, c.enProvoice, c.enNxdn, c.enDstar, c.invX2tdma, c.invDmr, c.modC4fm, c.modQpsk,
          c.modGfsk, c.nudgeInSync] ∧
      (regC0 c).extractLsb' 12 4 = 0 := by
  unfold regC0
  constructor
  · simp only [List.map_cons, List.map_nil, List.cons.injEq, and_true]
    refine ⟨?_, ?_, ?_, ?_, ?_, ?_, ?_, ?_, ?_, ?_, ?_, ?_⟩
    all_goals
      repeat rw [getLsbD_append_high _ _ (by omega)]
      rw [getLsbD_append_low _ _ (by omega), flag_getLsbD]
  · repeat rw [BitVec.extractLsb'_append_eq_of_le (by omega)]
    rfl

/-- A window register holds its window's bounds (R25). -/
theorem regWindow_fields {c : Config} (h : configLegal c = true) (rf : BitVec 2) :
    ((regWindow (winOf c rf)).extractLsb' 0 8).toNat = (winOf c rf).lo ∧
      ((regWindow (winOf c rf)).extractLsb' 8 8).toNat = (winOf c rf).hi :=
  twoBytes_fields (configLegal_window_lt h rf).1 (configLegal_window_lt h rf).2

theorem regC1_toNat {c : Config} (h : configLegal c = true) : (regC1 c).toNat = c.modThreshold :=
  Nat.mod_eq_of_lt (Nat.lt_succ_of_le (configLegal_modThreshold h))

theorem regC2_fields {c : Config} (h : configLegal c = true) :
    ((regC2 c).extractLsb' 0 8).toNat = c.sps ∧ ((regC2 c).extractLsb' 8 8).toNat = c.center := by
  obtain ⟨-, hsps, -, hcenter⟩ := configLegal_sps h
  exact twoBytes_fields (by omega) (by omega)

/-- The registers after reset read the table's values (R29, R235). -/
theorem statusReg_reset :
    List.ofFn (statusReg State.reset) = [0x0FFF, 0, 0x0100, 0x3A98, 0xC568, 0, 0x249F, 0xDB61, 0] := by
  decide +kernel

theorem configReg_decided : List.ofFn (configReg decided) = [0x0F24, 26, 0x040A, 0x0603, 0x0503, 0x0503] := by
  decide +kernel

/-- Settles O12: register by register, then the values. -/
theorem numberedRegistersHaveTheirFields : Obligations.NumberedRegistersHaveTheirFields := by
  refine ⟨fun s => ⟨regS0_fields s, regS1_fields s, regS2_fields s, ⟨rfl, rfl, rfl, rfl, rfl⟩, regS8_fields s⟩,
    statusReg_reset, configReg_decided, fun c h => ?_⟩
  obtain ⟨hflags, hzero⟩ := regC0_fields c
  obtain ⟨hsps, hcenter⟩ := regC2_fields h
  exact ⟨hflags, hzero, regC1_toNat h, hsps, hcenter, regWindow_fields h rfC4fm, regWindow_fields h rfQpsk,
    regWindow_fields h rfGfsk⟩

end Sys2Proof.Machine
end

section
/-! The statements of spec/20_memory.md: the history as a ring of `HIST_CAP` entries. -/

-- One declaration at a time, as in the tests, keeps the memory of the one-text compile small.
set_option Elab.async false

namespace Sys2Proof.Machine

/-! ### The ring index of a depth (R42, R43) -/

/-- Moving the pointer on by one makes every entry one deeper; depth 0, the entry at the pointer, becomes depth 1. -/
theorem depthIndex_succ {cap wp n : Nat} (hwp : wp < cap) (hn : n < cap) :
    ((wp + 1) % cap + cap - (n + 1)) % cap = (wp + cap - n) % cap := by
  obtain hwrap | hlt : wp + 1 = cap ∨ wp + 1 < cap := by omega
  · rw [hwrap, Nat.mod_self, show wp + cap - n = 0 + cap - (n + 1) + cap by omega, Nat.add_mod_right]
  · rw [Nat.mod_eq_of_lt hlt, show wp + 1 + cap - (n + 1) = wp + cap - n by omega]

/-- Only depth `HIST_CAP` comes back to the entry at the pointer. -/
theorem depthIndex_ne_pointer {cap wp n : Nat} (hwp : wp < cap) (h1 : 1 ≤ n) (hn : n < cap) :
    (wp + cap - n) % cap ≠ wp := by
  obtain hlt | hge := Nat.lt_or_ge wp n
  · rw [Nat.mod_eq_of_lt (by omega)]
    omega
  · rw [show wp + cap - n = wp - n + cap by omega, Nat.add_mod_right, Nat.mod_eq_of_lt (by omega)]
    omega

/-! ### What a push does to the entries and to the depths -/

/-- A push writes the entry at the pointer and no other (R42). -/
theorem histRead_histPush {s : State} (hw : histWf s.hist.cells = true) (d : Dibit) (a : Nat) :
    histRead (histPush d s).hist.cells a = if a = s.hist.wp then d else histRead s.hist.cells a := by
  split
  case isTrue h => exact h ▸ histRead_write_same hw
  case isFalse h => exact histRead_write_other _ h hw

/-- A depth inside the ring, one deeper after a push, reads the entry of the old depth from the new history. -/
theorem lookBack_histPush_succ {s : State} (hwp : s.hist.wp < s.cfg.histCap) (d : Dibit) {n : Nat}
    (hn : n < s.cfg.histCap) :
    lookBack (histPush d s) (n + 1) =
      histRead (histPush d s).hist.cells ((s.hist.wp + s.cfg.histCap - n) % s.cfg.histCap) :=
  congrArg (histRead (histPush d s).hist.cells) (depthIndex_succ hwp hn)

/-- The dibit pushed last is at depth 1 (R43). -/
theorem lookBack_histPush_one {s : State} (h : HistOk s) (d : Dibit) : lookBack (histPush d s) 1 = d := by
  have hpointer : (s.hist.wp + s.cfg.histCap - 0) % s.cfg.histCap = s.hist.wp := by
    rw [Nat.sub_zero, Nat.add_mod_right, Nat.mod_eq_of_lt h.pointer]
  rw [lookBack_histPush_succ h.pointer d (Nat.zero_lt_of_lt h.pointer), hpointer, histRead_histPush h.wf, if_pos rfl]

/-- Every dibit but the one that falls out of the ring is one deeper after a push (R43). -/
theorem lookBack_histPush_of_lt {s : State} (h : HistOk s) (d : Dibit) {n : Nat} (h1 : 1 ≤ n)
    (hn : n < s.cfg.histCap) : lookBack (histPush d s) (n + 1) = lookBack s n := by
  rw [lookBack_histPush_succ h.pointer d hn, histRead_histPush h.wf,
    if_neg (depthIndex_ne_pointer h.pointer h1 hn), lookBack]

/-- A look-back outside the ring is refused (R43). -/
theorem histBack_refused {s : State} {n : Nat} (h : n = 0 ∨ s.cfg.histCap < n) :
    histBack s n = .error .historyRange :=
  if_neg fun ⟨h1, h2⟩ => by omega

/-- Settles O37: the depths of the pushed dibit and of the others, the refused depths, and the history after reset. -/
theorem lookBackFindsThePushedDibits : Obligations.LookBackFindsThePushedDibits := by
  refine ⟨fun s d h => ⟨histPush_histOk h d, histRead_histPush h.wf d, ?depthOne, ?deeper, fun _ => histBack_refused⟩,
    fun c input n h1 h2 => ?reset⟩
  case depthOne =>
    have hcap : 1 ≤ s.cfg.histCap := Nat.one_le_of_lt h.pointer
    rw [histBack_ok (s := histPush d s) le_rfl hcap, lookBack_histPush_one h]
  case deeper =>
    intro n h1 hn
    rw [histBack_ok (s := histPush d s) (Nat.le_add_left 1 n) hn, histBack_ok h1 (Nat.le_of_lt hn),
      lookBack_histPush_of_lt h d h1 hn]
  case reset => rw [histBack_ok h1 h2, lookBack, histRead_reset]

end Sys2Proof.Machine
end

section
/-! The statements of spec/30_encoding.md: the decoder and the encoder undo each other. -/

-- One declaration at a time, as in the tests, keeps the memory of the one-text compile small.
set_option Elab.async false

namespace Sys2Proof

/-! ### The decoder and the fields of a word -/

/-- A word is the packing of its three fields. -/
theorem packWord_fields (w : CommandWord) : packWord (wordCode w) (wordFormat w) (wordOperand w) = w := by
  simp only [packWord, wordCode, wordFormat, wordOperand, BitVec.toNat_ofNat]
  change @Eq Nat _ _
  omega

/-- The words an instruction is read from: the code is that of a row of the format, the row makes the instruction of the
operand field, and the instruction is well formed and uses every bit that is set. -/
theorem decode_eq_ok_iff {w : CommandWord} {i : Instr} :
    decode w = .ok i ↔ ∃ rows r, formatRows (wordFormat w) = some rows ∧ findRow (wordCode w) rows = some r ∧
      r.make (wordOperand w) = i ∧ i.WellFormed ∧ wordOperand w < 2 ^ operandWidth i := by
  unfold decode
  cases hf : formatRows (wordFormat w) with
  | none => simp
  | some rows =>
    cases hr : findRow (wordCode w) rows with
    | none => simp [hr]
    | some r =>
      simp only [hr]
      constructor
      · intro h
        split_ifs at h with hwf hbits
        cases h
        refine ⟨rows, r, rfl, hr, rfl, by simpa using hwf, ?_⟩
        rw [Nat.shiftRight_eq_div_pow] at hbits
        exact (Nat.div_eq_zero_iff_lt (Nat.two_pow_pos _)).mp hbits
      · rintro ⟨rows', r', hrows, hr', rfl, hwf, hlt⟩
        cases hrows
        cases hr.symm.trans hr'
        rw [if_neg (by simp [hwf]), if_pos]
        rw [Nat.shiftRight_eq_div_pow, Nat.div_eq_of_lt hlt]

/-! ### The operand fields (R55, R79) -/

@[simp] theorem opDibit_slotOperand (d : Dibit) (k : BitVec 6) : opDibit (slotOperand d k) = d := by
  apply BitVec.eq_of_toNat_eq
  have := d.isLt
  simp only [opDibit, slotOperand, BitVec.toNat_ofNat]
  omega

@[simp] theorem opOffset_slotOperand (d : Dibit) (k : BitVec 6) : opOffset (slotOperand d k) = k := by
  apply BitVec.eq_of_toNat_eq
  have := d.isLt
  have := k.isLt
  simp only [opOffset, slotOperand, BitVec.toNat_ofNat]
  omega

@[simp] theorem opSample_sampleOperand (v : Sample) : opSample (sampleOperand v) = v := by
  simp [opSample, sampleOperand]

@[simp] theorem opBlock_blockOperand (b : Block) : opBlock (blockOperand b) = b := by
  simp [opBlock, blockOperand]

@[simp] theorem opSample_sampleFlagOperand (v : Sample) (b : Bool) : opSample (sampleFlagOperand v b) = v := by
  apply BitVec.eq_of_toNat_eq
  have := v.isLt
  simp only [opSample, sampleFlagOperand, BitVec.toNat_ofNat]
  omega

@[simp] theorem opFlag_sampleFlagOperand (v : Sample) (b : Bool) : opFlag (sampleFlagOperand v b) = b := by
  have hv : v.toNat < 2 ^ 16 := v.isLt
  rw [opFlag, sampleFlagOperand, Nat.testBit_eq_decide_div_mod_eq]
  cases b <;> simp <;> omega

theorem slotOperand_ops {o : Nat} (h : o < 2 ^ 8) : slotOperand (opDibit o) (opOffset o) = o := by
  simp only [slotOperand, opDibit, opOffset, BitVec.toNat_ofNat]
  omega

theorem sampleOperand_opSample {o : Nat} (h : o < 2 ^ 16) : sampleOperand (opSample o) = o :=
  Nat.mod_eq_of_lt h

theorem blockOperand_opBlock {o : Nat} (h : o < 2 ^ 660) : blockOperand (opBlock o) = o := Nat.mod_eq_of_lt h

theorem sampleFlagOperand_ops {o : Nat} (h : o < 2 ^ 17) : sampleFlagOperand (opSample o) (opFlag o) = o := by
  rw [sampleFlagOperand, opSample, opFlag, BitVec.toNat_ofNat, Nat.toNat_testBit]
  omega

/-! ### Decoding what the encoder writes -/

/-- A packed word decodes to what its code's row makes of the operand field. -/
theorem decode_packWord {i : Instr} {c f : BitVec 8} {o : Nat} {r : DecodeRow} (he : encode i = packWord c f o)
    (hr : (formatRows f).bind (findRow c) = some r) (hm : r.make o = i) (hi : i.WellFormed)
    (ho : o < 2 ^ operandWidth i) : decode (encode i) = .ok i := by
  obtain ⟨rows, hrows, hfind⟩ := Option.bind_eq_some_iff.mp hr
  rw [he, decode_eq_ok_iff, wordCode_packWord, wordFormat_packWord, wordOperand_packWord]
  exact ⟨rows, r, hrows, hfind, hm, hi, ho⟩

/-- Settles O1: each instruction's word has the code of its row, and the row reads the operands back. -/
theorem decodeInvertsEncode : Obligations.DecodeInvertsEncode := by
  intro i hi
  cases i with
  | dmrvSlot0 d k | dmrvSlot1 d k | dmrvSlot2 d k | dmrvSlot3 d k | dmrvSlot4 d k | dmrvSlot5 d k | dmrvSlot6 d k
  | dmrvSlot7 d k | dmrvSlot8 d k | dmrvSlot9 d k | dmrvSlot10 d k | dmrvTail d k =>
    exact decode_packWord rfl rfl (by simp) hi (slotOperand_lt d k)
  | uopStrPush v b => exact decode_packWord rfl rfl (by simp) hi (sampleFlagOperand_lt v b)
  | uopFsStep v | uopOrcPush v => exact decode_packWord rfl rfl (by simp) hi (sampleOperand_lt v)
  | uopDscXor660 b | uopDilPerm660 b | uopVitDecode b =>
    exact decode_packWord rfl rfl (by simp) hi (blockOperand_lt b)
  | _ => exact decode_packWord rfl rfl rfl rfl Nat.one_pos

/-! ### Encoding what the decoder reads -/

/-- The row `findRow` answers is one of the list, and the code matches it under its mask. -/
theorem findRow_some {code : BitVec 8} {rows : List DecodeRow} {r : DecodeRow} (h : findRow code rows = some r) :
    r ∈ rows ∧ code &&& r.mask = r.code := by
  induction rows with
  | nil => cases h
  | cons q rows ih =>
    unfold findRow at h
    split at h
    case isTrue hq => cases h; exact ⟨List.mem_cons_self, hq⟩
    case isFalse => exact ⟨List.mem_cons_of_mem _ (ih h).1, (ih h).2⟩

/-- The five rows whose mask leaves bits of the code free (R58). -/
def freeBitRows : List Instr := [.fsStep, .dmrdStep, .dsthBit, .dispatchReserved5, .dispatchReserved67]

/-- A row of format `f` loses nothing of a word that it reads, but for the free bits: the encoder writes for its
instruction the code and the operand field the row was given. -/
def DecodeRow.Reencodes (f : BitVec 8) (r : DecodeRow) : Prop :=
  ∀ c o, c &&& r.mask = r.code → o < 2 ^ operandWidth (r.make o) → r.make o ∉ freeBitRows →
    encode (r.make o) = packWord c f o

/-- A row whose mask leaves no bit free, if it gives its operand field back. -/
theorem reencodes_of_operand {f code : BitVec 8} {make : Nat → Instr}
    (h : ∀ o, o < 2 ^ operandWidth (make o) → encode (make o) = packWord code f o) :
    DecodeRow.Reencodes f ⟨0xFF, code, make⟩ := by
  intro c o hc ho _
  have hcode : c = code := (BitVec.and_allOnes (x := c)).symm.trans hc
  rw [hcode]
  exact h o ho

/-- A row of an instruction without operands. -/
theorem reencodes_plain {f code : BitVec 8} {i : Instr} (he : encode i = packWord code f 0) (hw : operandWidth i = 0) :
    DecodeRow.Reencodes f ⟨0xFF, code, fun _ => i⟩ := by
  refine reencodes_of_operand fun o ho => ?_
  obtain rfl : o = 0 := by simpa [hw] using ho
  exact he

/-- A row whose mask leaves bits free. -/
theorem reencodes_free {f mask code : BitVec 8} {i : Instr} (hi : i ∈ freeBitRows) :
    DecodeRow.Reencodes f ⟨mask, code, fun _ => i⟩ :=
  fun _ _ _ _ hn => absurd hi hn

theorem dispatchRows_reencode : ∀ r ∈ dispatchRows, r.Reencodes 0 := by
  simp only [dispatchRows, List.forall_mem_cons, List.not_mem_nil, false_implies, implies_true, and_true]
  refine ⟨?fsStep, ?slot0, ?slot1, ?slot2, ?slot3, ?slot4, ?slot5, ?slot6, ?slot7, ?slot8, ?slot9, ?slot10, ?tail,
    ?dmrdStep, ?dstvBit, ?dstdBit, ?dsthBit, ?reserved5, ?reserved67⟩
  case fsStep | dmrdStep | dsthBit | reserved5 | reserved67 => exact reencodes_free (by decide)
  case dstvBit | dstdBit => exact reencodes_plain rfl rfl
  all_goals exact reencodes_of_operand fun _ ho => congrArg (packWord _ _) (slotOperand_ops ho)

theorem uopRows_reencode : ∀ r ∈ uopRows, r.Reencodes 2 := by
  simp only [uopRows, List.forall_mem_cons, List.not_mem_nil, false_implies, implies_true, and_true]
  refine ⟨?strPush, ?majVote, ?fsStep, ?noCarrier, ?next, ?xor, ?perm, ?decode, ?dmrvEnter, ?dmrvStep, ?dmrdEnter,
    ?dmrdStep, ?dstEnter, ?dstvBit, ?dstdBit, ?dsthEnter, ?dsthBit, ?dsthDecode, ?toSearch, ?push, ?reset⟩
  case strPush => exact reencodes_of_operand fun _ ho => congrArg (packWord _ _) (sampleFlagOperand_ops ho)
  case fsStep | push => exact reencodes_of_operand fun _ ho => congrArg (packWord _ _) (sampleOperand_opSample ho)
  case xor | perm | decode => exact reencodes_of_operand fun _ ho => congrArg (packWord _ _) (blockOperand_opBlock ho)
  all_goals exact reencodes_plain rfl rfl

/-- The rows of the formats whose instructions have no operands. -/
theorem codeRows_reencode :
    (∀ r ∈ ftypeRows, r.Reencodes 1) ∧ (∀ r ∈ rfmodRows, r.Reencodes 3) ∧ (∀ r ∈ wentRows, r.Reencodes 4) ∧
      (∀ r ∈ slotlightRows, r.Reencodes 5) ∧ (∀ r ∈ dibitRows, r.Reencodes 6) ∧ (∀ r ∈ burstRows, r.Reencodes 7) ∧
      (∀ r ∈ conditionRows, r.Reencodes 8) := by
  simp only [ftypeRows, rfmodRows, wentRows, slotlightRows, dibitRows, burstRows, conditionRows, List.forall_mem_cons,
    List.not_mem_nil, false_implies, implies_true, and_true]
  and_intros <;> exact reencodes_plain rfl rfl

/-- The nine formats (R55) and their rows. -/
theorem formatRows_cases {f : BitVec 8} {rows : List DecodeRow} (h : formatRows f = some rows) :
    (f, rows) ∈ [(0, dispatchRows), (1, ftypeRows), (2, uopRows), (3, rfmodRows), (4, wentRows), (5, slotlightRows),
      (6, dibitRows), (7, burstRows), (8, conditionRows)] := by
  have hf (n : Nat) (hn : f.toNat = n) : f = BitVec.ofNat 8 n := by
    rw [← hn, BitVec.ofNat_toNat, BitVec.setWidth_eq]
  unfold formatRows at h
  split at h <;> cases h <;> rename_i hn <;> cases hf _ hn <;> simp

/-- Every row of every format. -/
theorem formatRows_reencode {f : BitVec 8} {rows : List DecodeRow} (h : formatRows f = some rows) :
    ∀ r ∈ rows, r.Reencodes f := by
  obtain ⟨hftype, hrfmod, hwent, hlight, hdibit, hburst, hcondition⟩ := codeRows_reencode
  have hrows := formatRows_cases h
  simp only [List.mem_cons, List.not_mem_nil, or_false, Prod.mk.injEq] at hrows
  obtain ⟨rfl, rfl⟩ | ⟨rfl, rfl⟩ | ⟨rfl, rfl⟩ | ⟨rfl, rfl⟩ | ⟨rfl, rfl⟩ | ⟨rfl, rfl⟩ | ⟨rfl, rfl⟩ | ⟨rfl, rfl⟩ |
    ⟨rfl, rfl⟩ := hrows
  · exact dispatchRows_reencode
  · exact hftype
  · exact uopRows_reencode
  · exact hrfmod
  · exact hwent
  · exact hlight
  · exact hdibit
  · exact hburst
  · exact hcondition

/-- Settles O2: the row a word decodes by gives back the word's fields. -/
theorem decodedIsWellFormedAndReencodes : Obligations.DecodedIsWellFormedAndReencodes := by
  intro w i h
  obtain ⟨rows, r, hrows, hfind, rfl, hwf, hlt⟩ := decode_eq_ok_iff.mp h
  obtain ⟨hmem, hcode⟩ := findRow_some hfind
  refine ⟨hwf, fun hfree => ?_⟩
  calc encode (r.make (wordOperand w))
      = packWord (wordCode w) (wordFormat w) (wordOperand w) := formatRows_reencode hrows r hmem _ _ hcode hlt hfree
    _ = w := packWord_fields w

/-- Settles O3: each word is the one the encoder writes for the instruction it stands for. -/
theorem specWordsDecodeToTheirRows : Obligations.SpecWordsDecodeToTheirRows :=
  have hpush : encode (.uopOrcPush (s16 (-8000))) = 0xE0C00213 := by decide
  ⟨decodeInvertsEncode (.dmrvTail 0 0) rfl, decodeInvertsEncode .dstdBit rfl, decodeInvertsEncode .ftypeDmrVoice rfl,
    decodeInvertsEncode .ftypeNone rfl, decodeInvertsEncode .uopOrcReset rfl,
    hpush ▸ decodeInvertsEncode (.uopOrcPush (s16 (-8000))) rfl, decodeInvertsEncode .rfmodGfsk rfl,
    decodeInvertsEncode .wentE rfl, decodeInvertsEncode .slotlightData rfl, decodeInvertsEncode .dibitRawAboveUmid rfl,
    decodeInvertsEncode .burstCsbk rfl, decodeInvertsEncode .condForeignsync rfl⟩

end Sys2Proof

namespace Sys2Proof.Machine

/-! ### The dispatch word (R58, R60, R67) -/

/-- The slot of a position by the ends of the ten slots (R67). -/
theorem slotIndex_eq (p : Nat) : slotIndex p =
    (if p < 54 then 0 else if p < 66 then 1 else if p < 102 then 2 else if p < 120 then 3 else if p < 144 then 4
      else if p < 162 then 5 else if p < 198 then 6 else if p < 210 then 7 else if p < 264 then 8
      else if p < 288 then 9 else 10) := by
  simp only [slotIndex, slotCum, List.findIdx_cons, List.findIdx_nil, Bool.cond_decide, ite_add]

/-- Settles O4: in each slot the offset counts from the end of the slot before. -/
theorem slotIndexAndOffsetFollowTheTable : Obligations.SlotIndexAndOffsetFollowTheTable := by
  refine fun p => ⟨slotIndex_eq p, fun hp => ?_⟩
  rw [slotOffsetOf, slotIndex_eq, if_pos hp]
  simp only [apply_ite fun i => p - slotStart i]
  rfl

theorem slotIndex_le (p : Nat) : slotIndex p ≤ 10 := List.findIdx_le_length

/-- `sub` in `fsm = 1` (R60). -/
theorem subField_voice {s : State} (h : s.fsm = 1) : subField s = dmrSub s.cfg s.dmr.symbolIndex.toNat := if_pos h

/-- `sub` in `fsm = 3` (R60). -/
theorem subField_dstar {s : State} (h : s.fsm = 3) : subField s = if s.dst.dstPos.toNat < 72 then 0 else 1 := by
  rw [subField, h]
  rfl

/-- `sub` is 0 in the other states (R60). -/
theorem subField_other {s : State} {f : BitVec 3} (hf : s.fsm = f) (hn : f ≠ 1 ∧ f ≠ 3) : subField s = 0 := by
  rw [subField, hf, if_neg hn.1, if_neg hn.2]

/-- The dispatch word of a state decodes as the word of its `fsm` and `sub` does. -/
theorem decode_dispatchWord {s : State} {f : BitVec 3} {n : Nat} {i : Instr} (hf : s.fsm = f) (hn : subField s = n)
    (hd : decode (f ++ BitVec.ofNat 4 n : BitVec 7).toNat = .ok i) : decode (dispatchWord s).toNat = .ok i := by
  rw [dispatchWord, hf, hn]
  exact hd

/-- The eleven slot words (R58). -/
theorem decode_slotWord {n : Nat} (h : n ≤ 10) :
    decode (1#3 ++ BitVec.ofNat 4 n : BitVec 7).toNat = .ok (slotRow n 0 0) := by
  interval_cases n <;> rfl

/-- Settles O5: in each state and position the word's `sub` is known, and the word is then a row's. -/
theorem dispatchWordSelectsItsRow : Obligations.DispatchWordSelectsItsRow := by
  intro s
  refine ⟨?search, ?tail, ?slot, ?data, ?voice, ?slow, ?header, ?reserved5, ?reserved67⟩
  case search | data | header | reserved5 =>
    exact fun hf => decode_dispatchWord hf (subField_other hf (by decide)) rfl
  case tail =>
    exact fun hf hidx => decode_dispatchWord hf ((subField_voice hf).trans (if_pos hidx)) rfl
  case slot =>
    exact fun hf hidx => decode_dispatchWord hf ((subField_voice hf).trans (if_neg (Nat.not_le.mpr hidx)))
      (decode_slotWord (slotIndex_le _))
  case voice =>
    exact fun hf hpos => decode_dispatchWord hf ((subField_dstar hf).trans (if_pos hpos)) rfl
  case slow =>
    exact fun hf hpos => decode_dispatchWord hf ((subField_dstar hf).trans (if_neg (Nat.not_lt.mpr hpos))) rfl
  case reserved67 =>
    intro hf
    obtain hf | hf : s.fsm = 6 ∨ s.fsm = 7 := by bv_omega
    · exact decode_dispatchWord hf (subField_other hf (by decide)) rfl
    · exact decode_dispatchWord hf (subField_other hf (by decide)) rfl

end Sys2Proof.Machine
end

section
/-! The statements of spec/30_encoding.md, continued: what the code rows and the selected rows do. -/

-- One declaration at a time, as in the tests, keeps the memory of the one-text compile small.
set_option Elab.async false

namespace Sys2Proof.Machine

/-! ### Refusals (R40, R75) -/

/-- An offset past the size is refused (R40). -/
theorem onOffset_refused {size : Nat} {k : BitVec 6} (h : size ≤ k.toNat) (t : State) :
    onOffset size k t = .error .slotOffset :=
  if_neg (by simpa [offsetOk] using h)

/-- Where no frame is handed off, `synctype` is not read (R161, R162). -/
theorem onHandOff_of_ne {last : Nat} {k : BitVec 6} (h : k.toNat ≠ last) (s : State) (r : Except Refusal State) :
    onHandOff last k s r = r :=
  if_neg fun hk => h hk.1

/-- A slot row with an offset past its size is refused (R40). -/
theorem runIn_onOffset_refused {s : State} (hs : Ready s) {size : Nat} {k : BitVec 6} (h : size ≤ k.toNat) (t : State) :
    runIn s (onOffset size k t) = .refused .slotOffset :=
  onOffset_refused h t ▸ runIn_error hs .slotOffset

/-- A slot row that hands frames off at its last offset, with an offset past its size (R40, R161, R162). -/
theorem runIn_onHandOff_refused {s : State} (hs : Ready s) {last size : Nat} {k : BitVec 6} (hlast : last < size)
    (h : size ≤ k.toNat) (t : State) : runIn s (onHandOff last k s (onOffset size k t)) = .refused .slotOffset := by
  rw [onHandOff_of_ne (by omega)]
  exact runIn_onOffset_refused hs h t

/-- Settles O6: the reserved rows whatever the state, the slot rows by the size of what each indexes. -/
theorem reservedRowsAreRefused : Obligations.ReservedRowsAreRefused := by
  refine fun s => ⟨rfl, rfl, rfl, rfl, fun d k hs => ⟨fun h => ⟨?slot1, ?slot7⟩, fun h => ?slot5, fun h => ⟨?slot4, ?slot9⟩,
    fun h => ⟨?slot2, ?slot3, ?slot6⟩⟩⟩
  case slot5 | slot6 => exact runIn_onHandOff_refused hs (by decide) h _
  all_goals exact runIn_onOffset_refused hs h _

/-! ### The code rows (R61 to R69) -/

/-- A lock on a code without a decoder in scope restarts the search (R205). -/
theorem enter_foreign {code : Ftype} (h : code ∉ ([6, 7, 10, 11, 12, 13, 18, 19] : List Ftype)) (s : State) :
    enter code s = .ok (toSearch s) := by
  simp only [List.mem_cons, List.not_mem_nil, or_false, not_or] at h
  unfold enter
  rw [if_neg (by tauto), if_neg (by tauto), if_neg (by tauto), if_neg (by tauto)]
  rfl

/-- Settles O56: the reaction to `NoSync`, and the lock whose entry is the restart of the search. -/
theorem foreignFrameTypesReturnToSearch : Obligations.ForeignFrameTypesReturnToSearch := by
  refine fun s hs => ⟨runIn_ok hs _, fun i code hi hcode => ?_⟩
  rw [exec_ftypeRow hi, react, lockOn_eq, enter_foreign hcode]
  exact runIn_ok hs _

/-- The codes of the rows are frame-type codes, so a lock on one is a legal `synctype` (R61). -/
theorem ftypeOk_of_ftypeCodes {i : Instr} {code : Ftype} (h : (i, code) ∈ ftypeCodes) : ftypeOk code :=
  ftypeOk_of_lt (ftypeCodes_lt _ h)

/-- The deepest look-back of an entry is inside the ring (R5, R44). -/
theorem histBack_entry {s : State} (hs : Ready s) : histBack s 90 = .ok (lookBack s 90) :=
  histBack_ok (by decide) (by have := configLegal_histCap hs.legal; omega)

/-- Under a lock on a code of R61 `DMRV.ENTER` answers (R152). -/
theorem dmrvEnter_answers {s : State} (hs : Ready s) (h : ftypeOk s.car.synctype) : ∃ t, dmrvEnter s = .ok t := by
  unfold dmrvEnter
  rw [if_neg (by simp [synctypeLegal_iff.mpr h]), histBack_entry hs]
  exact ⟨_, rfl⟩

/-- Under a lock on a code of R61 `DMRD.ENTER` answers (R166). -/
theorem dmrdEnter_answers {s : State} (hs : Ready s) (h : ftypeOk s.car.synctype) : ∃ t, dmrdEnter s = .ok t := by
  unfold dmrdEnter
  rw [if_neg (by simp [synctypeLegal_iff.mpr h]), histBack_entry hs]
  exact ⟨_, rfl⟩

/-- Settles O57: the row's reaction is the entry on the locked state, which runs where the row does. -/
theorem lockingFrameTypesEnterTheirProtocol : Obligations.LockingFrameTypesEnterTheirProtocol := by
  intro s hs i code hi u
  have hu : Ready u := hs
  have hlock : ftypeOk u.car.synctype := ftypeOk_of_ftypeCodes hi
  have hrow {t : State} (ht : enter code u = .ok t) : exec i s = .next t := by
    rw [exec_ftypeRow hi, react, lockOn_eq]
    exact ht ▸ runIn_ok hs t
  refine ⟨?voice, ?data, ?dstar, ?header⟩
  case voice =>
    intro hc
    obtain ⟨t, ht⟩ := dmrvEnter_answers hu hlock
    obtain ⟨-, _, _, hfsm, -⟩ := dmrvEnter_ok ht
    exact ⟨t, hrow ((if_pos hc).trans ht), runIn_next_iff.mpr ⟨hu, ht⟩, congrArg State.fsm hfsm⟩
  case data =>
    intro hc
    obtain ⟨t, ht⟩ := dmrdEnter_answers hu hlock
    obtain ⟨-, _, _, hfsm, -⟩ := dmrdEnter_ok ht
    have henter : enter code u = .ok t := by obtain rfl | rfl := hc <;> exact ht
    exact ⟨t, hrow henter, runIn_next_iff.mpr ⟨hu, ht⟩, congrArg State.fsm hfsm⟩
  case dstar =>
    intro hc
    have henter : enter code u = .ok (dstEnter u) := by obtain rfl | rfl := hc <;> rfl
    exact ⟨dstEnter u, hrow henter, runIn_ok hu _, rfl⟩
  case header =>
    intro hc
    have henter : enter code u = .ok (dsthEnter u) := by obtain rfl | rfl := hc <;> rfl
    exact ⟨dsthEnter u, hrow henter, runIn_ok hu _, rfl⟩

/-- Settles O58: each row writes the hypothesis of its class, whose enable flag is the class's. -/
theorem modulationRowsWriteTheHypothesis : Obligations.ModulationRowsWriteTheHypothesis :=
  fun _ hs => ⟨runIn_ok hs _, runIn_ok hs _, runIn_ok hs _⟩

/-- Settles O59: each row performs the write of its own code. -/
theorem codeRowsWriteTheirCode : Obligations.CodeRowsWriteTheirCode := by
  intro s hs
  refine ⟨fun i e hi => ?digit, runIn_ok hs _, runIn_ok hs _, runIn_ok hs _, runIn_ok hs _, fun i d hi => ?dibit,
    fun i b hi => ?burst⟩
  all_goals simp only [List.mem_cons, List.not_mem_nil, or_false, Prod.mk.injEq] at hi
  case digit | dibit =>
    obtain ⟨rfl, rfl⟩ | ⟨rfl, rfl⟩ | ⟨rfl, rfl⟩ | ⟨rfl, rfl⟩ := hi <;> exact runIn_ok hs _
  case burst =>
    obtain ⟨rfl, rfl⟩ | ⟨rfl, rfl⟩ | ⟨rfl, rfl⟩ | ⟨rfl, rfl⟩ | ⟨rfl, rfl⟩ | ⟨rfl, rfl⟩ | ⟨rfl, rfl⟩ | ⟨rfl, rfl⟩ |
      ⟨rfl, rfl⟩ | ⟨rfl, rfl⟩ | ⟨rfl, rfl⟩ := hi <;> exact runIn_ok hs _

/-! ### The row a symbol gets (R58, R200) -/

/-- Where operations run, the row a state selects is the operation its dispatch word selects. -/
theorem exec_symbolRow {s : State} (hs : Ready s) (u : State) :
    exec (symbolRow s) u = runIn u (selectOperation (dispatchWord s) u) := by
  obtain ⟨-, -, hfsm, -⟩ := (ready_iff s).mp hs
  rw [selectOperation_dispatchWord, symbolRow]
  obtain h | h | h | h | h : s.fsm = 0 ∨ s.fsm = 1 ∨ s.fsm = 2 ∨ s.fsm = 3 ∨ s.fsm = 4 := by bv_omega
  · rw [h]; rfl
  · rw [h]; rfl
  · rw [h]; rfl
  · rw [h]
    by_cases hpos : s.dst.dstPos.toNat < 72
    · simp only [if_pos hpos]; rfl
    · simp only [if_neg hpos]; rfl
  · rw [h]; rfl

/-- An operation's outcome depends on the state it is asked in through the guard only. -/
theorem runIn_congr {s t : State} (h : guardOf s = guardOf t) (k : Except Refusal State) : runIn s k = runIn t k := by
  unfold runIn
  rw [h]

/-- Where operations run, `STR.PUSH` answers the state after it, with the symbol it emits, if any, as its result (R80). -/
theorem exec_uopStrPush {s : State} (hs : Ready s) {v : Sample} {sync : Bool} {p : State × Option Sample}
    (hp : strPush v sync s = p) : exec (.uopStrPush v sync) s = .next { p.1 with ret := .symbol p.2 } :=
  hp ▸ runIn_ok hs _

/-- Settles O18: `ORC.PUSH` is `STR.PUSH` on the state without events, whose symbol, if any, the selected row then gets. -/
theorem pushRunsTimingThenTheSelectedRow : Obligations.PushRunsTimingThenTheSelectedRow := by
  intro s v hs
  have hs' : Ready { s with events := [] } := hs
  obtain ⟨⟨t, y⟩, hp⟩ : ∃ p, strPush v (haveSync s) { s with events := [] } = p := ⟨_, rfl⟩
  obtain ⟨str, maj, hframe⟩ := strPush_frame v (haveSync s) { s with events := [] }
  have hcases := orcPush_cases v s
  rw [hp] at hframe hcases
  obtain rfl : t = _ := hframe
  refine ⟨_, exec_uopStrPush hs' hp, ?inside, ?symbol⟩
  case inside =>
    intro hret
    obtain rfl : y = none := Ret.symbol.inj hret
    obtain ⟨-, hk⟩ | ⟨_, hy, -⟩ := hcases
    · exact runIn_next_iff.mpr ⟨hs, hk⟩
    · cases hy
  case symbol =>
    intro z hret
    obtain rfl : y = some z := Ret.symbol.inj hret
    obtain ⟨hy, -⟩ | ⟨_, hy, hk⟩ := hcases
    · cases hy
    · cases hy
      rw [exec_symbolRow hs]
      exact (congrArg (runIn s) hk).trans (runIn_congr rfl _)

end Sys2Proof.Machine
end

section
/-! The statements of spec/40_symbol_timing.md: the vote, the step for one sample, and the averaging window, which has a
sample at every boundary. -/

-- One declaration at a time, as in the tests, keeps the memory of the one-text compile small.
set_option Elab.async false

namespace Sys2Proof.Machine

/-! ### The sub-rules as writes of registers (R82, R83) -/

/-- The sample to come is averaged: its index is in the window of the modulation class (R83). -/
def inWindow (s : State) : Bool :=
  decide ((winOf s.cfg s.car.rfMod).lo ≤ s.str.sidx.toNat ∧ s.str.sidx.toNat ≤ (winOf s.cfg s.car.rfMod).hi)

theorem inWindow_iff (s : State) : inWindow s = true ↔
    (winOf s.cfg s.car.rfMod).lo ≤ s.str.sidx.toNat ∧ s.str.sidx.toNat ≤ (winOf s.cfg s.car.rfMod).hi :=
  decide_eq_true_iff

/-- `accumulate(s)` register by register: four writes, each of them a sample's in the window (R83). -/
theorem accumulate_eq (v : Sample) (s : State) :
    accumulate v s = { s with
      str.sum := if inWindow s = true then fitS 32 .sum (s.str.sum.toInt + v.toInt) else s.str.sum
      str.cnt := if inWindow s = true then countUp .cnt s.str.cnt else s.str.cnt
      maj.npos := if inWindow s = true ∧ s.car.center.toInt < v.toInt then countUp .npos s.maj.npos else s.maj.npos
      maj.nneg :=
        if inWindow s = true ∧ v.toInt < s.car.center.toInt then countUp .nneg s.maj.nneg else s.maj.nneg } := by
  unfold accumulate
  by_cases h : inWindow s = true
  · simp only [if_pos ((inWindow_iff s).mp h), h, true_and, if_true]
  · simp only [if_neg ((inWindow_iff s).not.mp h), h, Bool.false_eq_true, false_and, if_false]

theorem crossing_eq_decide (center last v : Sample) :
    crossing center last v = decide (center.toInt < v.toInt ∧ last.toInt < center.toInt ∨
      v.toInt < center.toInt ∧ center.toInt < last.toInt) := by
  simp only [crossing, Bool.decide_or, Bool.decide_and]

theorem timingEvent_eq_decide (c : CarRegs) (last v : Sample) :
    timingEvent c last v =
      if c.rfMod = rfQpsk then decide (c.max.toInt < v.toInt ∨ v.toInt < c.min.toInt)
      else decide (c.center.toInt < v.toInt ∧ last.toInt < c.center.toInt ∨
        v.toInt < c.center.toInt ∧ c.center.toInt < last.toInt) := by
  simp only [timingEvent, beyond, crossing_eq_decide, Bool.decide_or]

/-- Clamp, track, accumulate and count, register by register (R80 to R83): `track` writes nothing that `accumulate`
reads. -/
theorem strIntake_eq (v : Sample) (sync : Bool) (s : State) :
    strIntake v sync s =
      let c := clamp s.car sync v
      { track sync c s with
        str.sum := if inWindow s = true then fitS 32 .sum (s.str.sum.toInt + c.toInt) else s.str.sum
        str.cnt := if inWindow s = true then countUp .cnt s.str.cnt else s.str.cnt
        maj.npos := if inWindow s = true ∧ s.car.center.toInt < c.toInt then countUp .npos s.maj.npos else s.maj.npos
        maj.nneg := if inWindow s = true ∧ c.toInt < s.car.center.toInt then countUp .nneg s.maj.nneg else s.maj.nneg
        str.sidx := countUp .sidx s.str.sidx } :=
  congrArg (fun t : State => { t with str.sidx := countUp .sidx t.str.sidx })
    (accumulate_eq (clamp s.car sync v) (track sync (clamp s.car sync v) s))

/-! ### The step for one sample and its boundary (R80, R84 to R88) -/

section
variable {s : State} {v : Sample} {sync : Bool}

/-- Before its last sample a period goes on without a symbol (R84). -/
theorem exec_uopStrPush_inside (hs : Ready s) (h : s.str.sidx.toNat + 1 < s.str.plen.toNat) :
    exec (.uopStrPush v sync) s = .next { strIntake v sync s with ret := .symbol none } := by
  have hplen := s.str.plen.isLt
  exact exec_uopStrPush hs
    (strPush_inside (by rw [strIntake_sidx, strIntake_plen, countUp_toNat _ _ (by omega)]; exact h))

/-- The last sample of a period emits the average and writes the boundary (R84 to R88). -/
theorem exec_uopStrPush_boundary (hs : Ready s) (h : s.str.sidx.toNat + 1 = s.str.plen.toNat) :
    exec (.uopStrPush v sync) s = .next { boundary sync (strIntake v sync s) with
      ret := .symbol (some (average (strIntake v sync s))) } := by
  have hplen := s.str.plen.isLt
  exact exec_uopStrPush hs
    (strPush_boundary (by rw [strIntake_sidx, strIntake_plen, countUp_toNat _ _ (by omega)]; exact h.not_lt))

end

/-- A whole period, at its shortest, passes its averaging window: some sample of it is averaged (R5, R83, R86). -/
theorem windowCount_pos_of_plen {s : State} (h : Inv s) :
    0 < windowCount (winOf s.cfg s.car.rfMod) s.str.plen.toNat := by
  obtain ⟨hlo, hhi⟩ := configLegal_window h.legal s.car.rfMod
  have hplen := h.period.plen
  unfold windowCount
  omega

/-- Settles O17: the count after the last sample is that of a whole period's window, which is not empty. -/
theorem emptyWindowIsUnreachable : Obligations.EmptyWindowIsUnreachable := by
  intro s v h hlast
  obtain ⟨-, hcnt⟩ := strIntake_count h.inv v (haveSync s) h.count
  rw [hcnt, hlast]
  exact windowCount_pos_of_plen h.inv

/-- Settles O22: the intake register by register, then the two ways the sample index can stand to the period's length. -/
theorem strPushFollowsItsSubRules : Obligations.StrPushFollowsItsSubRules := by
  intro s v sync hs _ c center cross event w inside u j n
  have hu : strIntake v sync s = u := by
    rw [strIntake_eq]
    simp only [track, crossing_eq_decide, timingEvent_eq_decide]
    rfl
  refine ⟨fun h => ?inPeriod, fun h => ?atBoundary⟩
  case inPeriod => rw [exec_uopStrPush_inside hs h, hu]
  case atBoundary =>
    rw [exec_uopStrPush_boundary hs h, hu]
    rfl

/-- Settles O23: the vote is the operation's own part, which nothing refuses. -/
theorem majorityVoteIsTheSignMajority : Obligations.MajorityVoteIsTheSignMajority := fun s hs => runIn_ok hs (majVote s)

end Sys2Proof.Machine
end

section
/-! The statements of spec/41_frame_sync.md: the intake of a search symbol, the recalibration of the levels, the match of
the sync patterns, and the ways `FS.STEP` ends. -/

-- One declaration at a time, as in the tests, keeps the memory of the one-text compile small.
set_option Elab.async false

namespace Sys2Proof.Machine

/-! ### The intake of a search symbol (R96 to R99, R106 (a)) -/

/-- The enable flag of the class the flip counter chooses (R98). -/
theorem modEnabled_hypothesisClass (c : Config) (flips : Nat) :
    modEnabled c (hypothesisClass c flips) =
      if c.modThreshold < flips then c.modQpsk else if 18 < flips then c.modGfsk else c.modC4fm := by
  unfold hypothesisClass
  split
  · rfl
  · split <;> rfl

/-- `modulation_window()` register by register: three writes, two of them on the 24th symbol only (R97, R98). -/
theorem modulationWindow_eq (s : State) :
    modulationWindow s =
      let m := hypothesisClass s.cfg s.str.numflips.toNat
      { s with
        fs.lastt := if s.fs.lastt = 23 then 0 else countUp .lastt s.fs.lastt
        car.rfMod := if s.fs.lastt = 23 ∧ modEnabled s.cfg m = true then m else s.car.rfMod
        str.numflips := if s.fs.lastt = 23 then 0 else s.str.numflips } := by
  unfold modulationWindow
  by_cases h : s.fs.lastt = 23
  · simp only [h, if_true, true_and]
    rfl
  · simp only [h, if_false, false_and]

theorem ageHint_eq (s : State) :
    ageHint s = { s with fs.tHint := if 0 ≤ s.fs.hint.toInt then countUp .tHint s.fs.tHint else s.fs.tHint } := by
  unfold ageHint
  split <;> rfl

/-- What the window holds after the intake of a symbol (R99). -/
theorem searchIntake_window (v : Sample) (s : State) :
    (searchIntake v s).fs.window = shiftIn s.fs.window ((searchDibit s v).setWidth 3) := by
  rw [searchIntake, ageHint_eq, modulationWindow_eq]
  rfl

/-- Settles O25: hint ageing and the modulation window write their registers side by side with the plain writes of
`observe` and `shift_window`. -/
theorem searchIntakeWritesTheSymbol : Obligations.SearchIntakeWritesTheSymbol := by
  intro s v d flips m enabled
  have henabled : modEnabled s.cfg m = enabled := modEnabled_hypothesisClass s.cfg flips
  refine ⟨?_, fun i hi => ?_, ?_⟩
  · rw [searchIntake, ageHint_eq, modulationWindow_eq, ← henabled]
    rfl
  · simp only [searchIntake_window]
    exact getElem_shiftIn s.fs.window _ i hi
  · simp only [searchIntake_window]
    exact getElem_shiftIn_last s.fs.window _

/-! ### Recalibration and levels (R103, R104) -/

/-- A number in the range of a sample is what the register then reads. -/
theorem s16_toInt {x : Int} (h : -32768 ≤ x ∧ x ≤ 32767) : (s16 x).toInt = x :=
  BitVec.toInt_ofInt_eq_self (by omega) h.1 (by omega)

/-- The truncated mean of two samples is a sample (R36). -/
theorem s16_mean_toInt (a b : Sample) : (s16 ((a.toInt + b.toInt).tdiv 2)).toInt = (a.toInt + b.toInt).tdiv 2 := by
  have ha := sample_bounds a
  have hb := sample_bounds b
  exact s16_toInt (tdiv_bounds (by omega) (by omega) (by omega))

/-- Five eighths of the way from one sample to another is a sample: it lies between the two (R36, R104). -/
theorem s16_level_toInt (m c : Sample) :
    (s16 (((m.toInt - c.toInt) * 5).tdiv 8 + c.toInt)).toInt = ((m.toInt - c.toInt) * 5).tdiv 8 + c.toInt := by
  have hm := sample_bounds m
  have hc := sample_bounds c
  have hq : -32768 - c.toInt ≤ ((m.toInt - c.toInt) * 5).tdiv 8 ∧ ((m.toInt - c.toInt) * 5).tdiv 8 ≤ 32767 - c.toInt :=
    tdiv_bounds (by omega) (by omega) (by omega)
  exact s16_toInt (by omega)

theorem levels_center_toInt (c : CarRegs) : (levels c).center.toInt = (c.max.toInt + c.min.toInt).tdiv 2 :=
  s16_mean_toInt c.max c.min

theorem levels_umid_toInt (c : CarRegs) :
    (levels c).umid.toInt =
      ((c.max.toInt - (levels c).center.toInt) * 5).tdiv 8 + (levels c).center.toInt := by
  rw [← s16_level_toInt, levels_center_toInt]
  rfl

theorem levels_lmid_toInt (c : CarRegs) :
    (levels c).lmid.toInt =
      ((c.min.toInt - (levels c).center.toInt) * 5).tdiv 8 + (levels c).center.toInt := by
  rw [← s16_level_toInt, levels_center_toInt]
  rfl

theorem maxOf_eq_foldl (m : Int) (l : List Sample) : maxOf m l = (l.map BitVec.toInt).foldl max m := by
  induction l generalizing m with
  | nil => rfl
  | cons v l ih => exact ih _

theorem minOf_eq_foldl (m : Int) (l : List Sample) : minOf m l = (l.map BitVec.toInt).foldl min m := by
  induction l generalizing m with
  | nil => rfl
  | cons v l ih => exact ih _

/-- Taken from an entry of the list on, the greatest is an entry of the list, and none is above it. -/
theorem exists_maxOf {v : Sample} {l : List Sample} (hv : v ∈ l) :
    ∃ x ∈ l, maxOf v.toInt l = x.toInt ∧ ∀ y ∈ l, y.toInt ≤ x.toInt := by
  have h : ((v :: l).map BitVec.toInt).max? = some (maxOf v.toInt l) := by
    rw [List.map_cons, List.max?_cons', maxOf_eq_foldl]
  obtain ⟨hmem, hle⟩ := List.max?_eq_some_iff.mp h
  obtain ⟨x, hx, hxe⟩ := List.mem_map.mp hmem
  exact ⟨x, (List.mem_cons.mp hx).elim (· ▸ hv) id, hxe.symm,
    fun y hy => hxe ▸ hle _ (List.mem_map_of_mem (List.mem_cons_of_mem v hy))⟩

/-- Taken from an entry of the list on, the least is an entry of the list, and none is below it. -/
theorem exists_minOf {v : Sample} {l : List Sample} (hv : v ∈ l) :
    ∃ x ∈ l, minOf v.toInt l = x.toInt ∧ ∀ y ∈ l, x.toInt ≤ y.toInt := by
  have h : ((v :: l).map BitVec.toInt).min? = some (minOf v.toInt l) := by
    rw [List.map_cons, List.min?_cons', minOf_eq_foldl]
  obtain ⟨hmem, hle⟩ := List.min?_eq_some_iff.mp h
  obtain ⟨x, hx, hxe⟩ := List.mem_map.mp hmem
  exact ⟨x, (List.mem_cons.mp hx).elim (· ▸ hv) id, hxe.symm,
    fun y hy => hxe ▸ hle _ (List.mem_map_of_mem (List.mem_cons_of_mem v hy))⟩

/-- The CAR registers with the local extremes `hi` and `lo` blended in, before the levels follow (R103). -/
def blend (hi lo : Sample) (c : CarRegs) : CarRegs :=
  { c with max := s16 ((c.max.toInt + hi.toInt).tdiv 2), min := s16 ((c.min.toInt + lo.toInt).tdiv 2) }

theorem recalibrate_eq {s : State} {hi lo : Sample} (hmax : maxOf s.fs.lbuf[0].toInt s.fs.lbuf.toList = hi.toInt)
    (hmin : minOf s.fs.lbuf[0].toInt s.fs.lbuf.toList = lo.toInt) :
    recalibrate s = { s with car := levels (blend hi lo s.car) } := by
  simp only [recalibrate, hmax, hmin, blend]

/-- Settles O29: the fold over `lbuf` takes its extremes from the buffer, and means and levels of samples are samples. -/
theorem recalibrationBlendsTheLocalExtremes : Obligations.RecalibrationBlendsTheLocalExtremes := by
  intro s
  have hfirst : s.fs.lbuf[0] ∈ s.fs.lbuf.toList := Vector.mem_toList_iff.mpr (Vector.getElem_mem _)
  obtain ⟨lmax, hmaxMem, hmax, hgreatest⟩ := exists_maxOf hfirst
  obtain ⟨lmin, hminMem, hmin, hleast⟩ := exists_minOf hfirst
  exact ⟨lmax, hmaxMem, lmin, hminMem, fun v hv => ⟨hleast v hv, hgreatest v hv⟩, _, _, _, _, _,
    recalibrate_eq hmax hmin, s16_mean_toInt _ _, s16_mean_toInt _ _, levels_center_toInt (blend lmax lmin s.car),
    levels_umid_toInt (blend lmax lmin s.car), levels_lmid_toInt (blend lmax lmin s.car)⟩

/-! ### Matching (R100 to R102) -/

/-- What a legal table says of the length and the pattern of each of its rows (R46). -/
theorem configLegal_rowShape {c : Config} (h : configLegal c = true) {r : SyncRow} (hr : r ∈ c.romSync) :
    (r.len = 24 ∨ r.len = 32 ∨ r.len = 18) ∧ ∀ p, r.pattern = some p → p.length = r.len := by
  simp only [configLegal, Bool.and_eq_true] at h
  have hs := List.all_eq_true.mp (show c.romSync.all (syncRowLegal c) = true by tauto) r hr
  simp only [syncRowLegal, Bool.and_eq_true, Bool.or_eq_true, beq_iff_eq] at hs
  obtain ⟨⟨⟨⟨⟨hlen, hpattern⟩, -⟩, -⟩, -⟩, -⟩ := hs
  refine ⟨by tauto, fun p hp => ?_⟩
  simpa only [hp, beq_iff_eq] using hpattern

/-- The digits of a pattern match where, as window entries, they begin the list. -/
theorem matchesFrom_iff_prefix (w : List Went) (p : List Dibit) :
    matchesFrom w p = true ↔ p.map (BitVec.setWidth 3) <+: w := by
  induction p generalizing w with
  | nil => simp [matchesFrom]
  | cons d p ih =>
    cases w with
    | nil => simp [matchesFrom]
    | cons e w =>
      rw [matchesFrom, Bool.and_eq_true, decide_eq_true_eq, ih, List.map_cons, List.cons_prefix_cons, eq_comm (a := e)]

/-- A row of a legal table matches when the trailing `L` entries of the window are its digits. -/
theorem rowMatches_iff {c : Config} (hc : configLegal c = true) {r : SyncRow} (hr : r ∈ c.romSync) (w : Vector Went 32) :
    rowMatches w r = true ↔
      ∃ p, r.pattern = some p ∧ p.map (BitVec.setWidth 3) = w.toList.drop (32 - r.len) := by
  obtain ⟨hlen, hpattern⟩ := configLegal_rowShape hc hr
  unfold rowMatches
  cases hp : r.pattern with
  | none => simp
  | some p =>
    have hlength : (p.map (BitVec.setWidth 3)).length = (w.toList.drop (32 - r.len)).length := by
      rw [List.length_map, List.length_drop, Vector.length_toList, hpattern p hp]
      omega
    simp only [matchesFrom_iff_prefix, Option.some.injEq, exists_eq_left']
    exact ⟨fun h => h.eq_of_length hlength, fun h => h ▸ List.prefix_rfl⟩

/-- The trailing entries of the window are a list of that many digits when they agree digit by digit. -/
theorem eq_drop_iff_getElem? {n : Nat} {p : List Dibit} (hp : p.length = n) (w : Vector Went 32) :
    p.map (BitVec.setWidth 3) = w.toList.drop (32 - n) ↔
      ∀ i, i < n → w.toList[32 - n + i]? = (p[i]?).map (BitVec.setWidth 3) := by
  rw [List.ext_getElem?_iff]
  simp only [List.getElem?_map, List.getElem?_drop]
  refine ⟨fun h i _ => (h i).symm, fun h i => ?_⟩
  by_cases hi : i < n
  · exact (h i hi).symm
  · rw [List.getElem?_eq_none (by omega), List.getElem?_eq_none (by rw [Vector.length_toList]; omega)]
    rfl

/-- No two digits have the same window entry (R65). -/
theorem setWidth_digits_injective : Function.Injective (List.map (BitVec.setWidth 3 : Dibit → Went)) :=
  List.map_injective_iff.mpr (by decide)

theorem firstRow_eq_find? (c : Config) (w : Vector Went 32) (l : List SyncRow) :
    firstRow c w l = l.find? fun r => protocolEnabled c r.proto && rowMatches w r := by
  induction l with
  | nil => rfl
  | cons q l ih =>
    rw [firstRow, List.find?_cons, ih]
    cases protocolEnabled c q.proto <;> cases rowMatches w q <;> rfl

/-- The first match, with the rows it comes before and after (R100, R102). -/
theorem firstMatch_eq_some_iff (s : State) (r : SyncRow) :
    firstMatch s = some r ↔
      18 ≤ s.fs.t.toNat ∧ ∃ before after, s.cfg.romSync = before ++ r :: after ∧
        (protocolEnabled s.cfg r.proto = true ∧ rowMatches s.fs.window r = true) ∧
        ∀ q ∈ before, ¬ (protocolEnabled s.cfg q.proto = true ∧ rowMatches s.fs.window q = true) := by
  unfold firstMatch
  by_cases ht : s.fs.t.toNat < Config.matchGate
  · have ht' : ¬ 18 ≤ s.fs.t.toNat := Nat.not_le.mpr ht
    simp only [if_pos ht, reduceCtorEq, ht', false_and]
  · have ht' : 18 ≤ s.fs.t.toNat := Nat.not_lt.mp ht
    simp only [if_neg ht, firstRow_eq_find?, List.find?_eq_some_iff_append, ht', true_and, Bool.and_eq_true,
      Bool.not_eq_true', ← Bool.not_eq_true]
    exact ⟨fun ⟨hr, before, after, hl, hb⟩ => ⟨before, after, hl, hr, hb⟩,
      fun ⟨before, after, hl, hr, hb⟩ => ⟨hr, before, after, hl, hb⟩⟩

/-- Settles O26: of the rows of a legal table, that a row matches is the agreement of its digits with the window. -/
theorem firstMatchIsTheFirstEnabledMatchingRow : Obligations.FirstMatchIsTheFirstEnabledMatchingRow := by
  intro s r hc matching
  have hmatching : ∀ q ∈ s.cfg.romSync,
      (protocolEnabled s.cfg q.proto = true ∧ rowMatches s.fs.window q = true ↔ matching q) := by
    intro q hq
    rw [rowMatches_iff hc hq]
    refine and_congr_right fun _ => exists_congr fun p => and_congr_right fun hp => ?_
    exact eq_drop_iff_getElem? ((configLegal_rowShape hc hq).2 p hp) s.fs.window
  rw [firstMatch_eq_some_iff]
  refine and_congr_right fun _ => exists_congr fun before => exists_congr fun after => and_congr_right fun hl => ?_
  have hmem : ∀ q ∈ before ++ r :: after, q ∈ s.cfg.romSync := fun q hq => hl ▸ hq
  refine and_congr (hmatching r (hmem r (by simp))) (forall₂_congr fun q hq => not_congr ?_)
  exact hmatching q (hmem q (List.mem_append_left _ hq))

/-! ### A restart of the search (R99, R112, R206) -/

/-- Each intake moves the window by one entry. -/
theorem intakeAll_window (l : List Sample) (s : State) {i : Nat} (h : i + l.length < 32) :
    (intakeAll l s).fs.window[i] = s.fs.window[i + l.length] := by
  induction l generalizing s with
  | nil => rfl
  | cons v l ih =>
    rw [List.length_cons] at h
    have hshift := getElem_shiftIn s.fs.window ((searchDibit s v).setWidth 3) (i + l.length) (by omega)
    simp only [intakeAll, ih (searchIntake v s) (by omega), searchIntake_window, hshift]
    rfl

/-- Settles O31: the oldest entry the row looks at is still the `E` of the restart, which equals no digit. -/
theorem noPatternMatchesBeforeItsLength : Obligations.NoPatternMatchesBeforeItsLength := by
  intro s l r hc hr hl
  obtain ⟨hlen, hpattern⟩ := configLegal_rowShape hc hr
  have hempty : (intakeAll l (toSearch s)).fs.window[32 - r.len]'(by omega) = wentE := by
    rw [intakeAll_window l (toSearch s) (by omega)]
    exact Vector.getElem_replicate _
  refine Bool.eq_false_iff.mpr fun hm => ?_
  obtain ⟨p, hp, hdigits⟩ := (rowMatches_iff hc hr _).mp hm
  have hlength := hpattern p hp
  have hfirst := (eq_drop_iff_getElem? hlength _).mp hdigits 0 (by omega)
  rw [Nat.add_zero, List.getElem?_eq_getElem (by rw [Vector.length_toList]; omega), Vector.getElem_toList, hempty,
    List.getElem?_eq_getElem (by omega), Option.map_some, Option.some.injEq] at hfirst
  exact (by decide : ∀ d : Dibit, wentE ≠ d.setWidth 3) _ hfirst

/-! ### The ways `FS.STEP` ends (R101, R105 to R108) -/

theorem expireHint_synctestPos (s : State) : (expireHint s).fs.synctestPos = s.fs.synctestPos := by
  unfold expireHint
  split <;> rfl

/-- Settles O28: the carrier watch decides on the count of misses, which hint expiry does not move. -/
theorem searchMissExpiresTheHintAndWatchesTheCarrier : Obligations.SearchMissExpiresTheHintAndWatchesTheCarrier := by
  intro s e m
  have hm : countMiss (expireHint s) = m := by
    rw [countMiss, expireHint_synctestPos]
    rfl
  have hcfg : m.cfg = s.cfg := by rw [← hm, countMiss_cfg, expireHint_cfg]
  rw [searchMiss, carrierWatch]
  simp only [hm, hcfg]
  exact ⟨fun h => if_pos h, fun h => if_neg (Nat.not_le.mpr h)⟩

/-- Settles O32: the operation has no refusal of its own. -/
theorem noCarrierRestoresTheDefaults : Obligations.NoCarrierRestoresTheDefaults := fun s hs => runIn_ok hs (noCarrier s)

theorem codeOf_eq (c : Config) (r : SyncRow) :
    codeOf c r =
      if r.proto = .dmr then (if c.invDmr = true then r.code1 else r.code0)
      else if r.proto = .x2tdma then (if c.invX2tdma = true then r.code1 else r.code0)
      else r.code0 := by
  unfold codeOf
  cases r.proto <;> rfl

/-- A hint confirms a code when it is in the code's polarity pair (R105). -/
theorem inPair_iff (code hint : Ftype) :
    inPair code hint = true ↔ hint ∈ if code ∈ ([8, 16] : List Ftype) then ([8, 16] : List Ftype) else [9, 17] := by
  have hcode : code ∈ ([8, 16] : List Ftype) ↔ code = 8 ∨ code = 16 := by simp
  rw [inPair, if_congr hcode rfl rfl]
  split <;> simp

section
variable {s : State} {v : Sample} {r : SyncRow}

theorem fsStep_of_none (h : firstMatch (searchIntake v s) = none) : fsStep v s = searchMiss (searchIntake v s) := by
  simp only [fsStep, h]

/-- A match is confirmed by a row that needs no second hit, or by a hint in the polarity pair of its code (R105). -/
theorem fsStep_of_confirmed (h : firstMatch (searchIntake v s) = some r)
    (hc : r.twoHit = false ∨ inPair (codeOf s.cfg r) (searchIntake v s).fs.hint = true) :
    fsStep v s = (dropHint (recalibrate (searchIntake v s)), .sync (codeOf s.cfg r)) := by
  have ht : twoHit r (codeOf s.cfg r) (recalibrate (searchIntake v s)) =
      (dropHint (recalibrate (searchIntake v s)), true) := by
    unfold twoHit
    obtain hn | hp := hc
    · rw [if_pos hn]
    · rw [recalibrate_fs, if_pos hp, ite_self]
  simp only [fsStep, h, searchIntake_cfg, ht, if_true]

/-- A first hit that waits for a second sets the hint and ends as a miss (R105). -/
theorem fsStep_of_pending (h : firstMatch (searchIntake v s) = some r) (htwo : r.twoHit = true)
    (hp : ¬ inPair (codeOf s.cfg r) (searchIntake v s).fs.hint = true) :
    fsStep v s = searchMiss
      { recalibrate (searchIntake v s) with fs.hint := codeOf s.cfg r, fs.tHint := 0 } := by
  have ht : twoHit r (codeOf s.cfg r) (recalibrate (searchIntake v s)) =
      ({ recalibrate (searchIntake v s) with fs.hint := codeOf s.cfg r, fs.tHint := 0 }, false) := by
    rw [twoHit, if_neg (Bool.eq_false_iff.not_left.mpr htwo), recalibrate_fs, if_neg hp]
    rfl
  simp only [fsStep, h, searchIntake_cfg, ht, Bool.false_eq_true, if_false]

/-- Where operations run, `FS.STEP` answers the state after it, with its result (R95). -/
theorem exec_uopFsStep (hs : Ready s) {p : State × SyncResult} (hp : fsStep v s = p) :
    exec (.uopFsStep v) s = .next { p.1 with ret := .sync p.2 } :=
  hp ▸ runIn_ok hs _

end

/-- Settles O27: no match, a match that is confirmed, a match that waits for a second. -/
theorem fsStepGoesOneOfThreeWays : Obligations.FsStepGoesOneOfThreeWays := by
  intro s v hs u
  refine ⟨fun h => exec_uopFsStep hs (fsStep_of_none h), fun r h => ?_⟩
  intro code pair k
  have hcode : codeOf s.cfg r = code := codeOf_eq s.cfg r
  have hpair : inPair (codeOf s.cfg r) u.fs.hint = true ↔ u.fs.hint ∈ pair := by
    rw [hcode]
    exact inPair_iff code u.fs.hint
  refine ⟨fun hc => ?confirmed, fun htwo hp => ?pending⟩
  case confirmed =>
    rw [exec_uopFsStep hs (fsStep_of_confirmed h (hc.imp_right hpair.mpr)), hcode]
    rfl
  case pending =>
    rw [exec_uopFsStep hs (fsStep_of_pending h htwo (hpair.not.mpr hp)), hcode]

/-- The row of the document's own sync pattern, as R46's table has it (R111). -/
def dmrBsVoiceRow : SyncRow := ⟨.dmrBsVoiceSync, .dmr, 24, some dmrBsVoiceSyncPattern, 12, 13, false⟩

/-- Settles O30: the row is the first match, since the rows before it have other digits in the same place, and needs no
second hit. -/
theorem dmrBaseStationVoicePatternGivesItsCode : Obligations.DmrBaseStationVoicePatternGivesItsCode := by
  intro s v before after hs hdmr hrom hbefore ht hwindow
  have hc := hs.legal
  have hmem : ∀ q ∈ before, q ∈ s.cfg.romSync := fun q hq => hrom ▸ List.mem_append_left _ hq
  have hrow : dmrBsVoiceRow ∈ s.cfg.romSync := hrom ▸ List.mem_append_right _ List.mem_cons_self
  have hfirst : firstMatch (searchIntake v s) = some dmrBsVoiceRow := by
    rw [firstMatch_eq_some_iff, searchIntake_cfg]
    refine ⟨by omega, before, after, hrom, ⟨hdmr, (rowMatches_iff hc hrow _).mpr ⟨_, rfl, hwindow.symm⟩⟩, ?_⟩
    rintro q hq ⟨hen, hm⟩
    obtain ⟨hlen, hother⟩ := hbefore q hq hen
    obtain ⟨p, hp, hdigits⟩ := (rowMatches_iff hc (hmem q hq) _).mp hm
    rw [hlen, hwindow] at hdigits
    exact hother (hp.trans (congrArg some (setWidth_digits_injective hdigits)))
  exact ⟨_, exec_uopFsStep hs (fsStep_of_confirmed hfirst (.inl rfl)), rfl⟩

end Sys2Proof.Machine
end

section
/-! The statements of spec/42_dibit_extractor.md: the policy of each code, what the polarity of signal and lock does to a
dibit, and that a symbol is one entry of the history. -/

-- One declaration at a time, as in the tests, keeps the memory of the one-text compile small.
set_option Elab.async false

namespace Sys2Proof.Machine

/-! ### The policy of a code (R116) -/

section
variable {code : Ftype} (c : CarRegs) (v : Sample)

theorem slice_P2 (h : code ∈ ([6, 14, 18] : List Ftype)) : slice code c v = sliceP2 c v := if_pos h

theorem slice_P2I (h : code ∈ ([7, 15, 19] : List Ftype)) : slice code c v = sliceP2I c v := by
  have hn : code ∉ ([6, 14, 18] : List Ftype) := by revert code; decide
  rw [slice, if_neg hn, if_pos h]

theorem slice_P4I (h : code ∈ ([1, 3, 5, 9, 11, 13] : List Ftype)) : slice code c v = sliceP4I c v := by
  obtain ⟨h2, h2i⟩ : code ∉ ([6, 14, 18] : List Ftype) ∧ code ∉ ([7, 15, 19] : List Ftype) := by revert code; decide
  rw [slice, if_neg h2, if_neg h2i, if_pos h]

theorem slice_P4 (h : code ∈ ([0, 2, 4, 8, 10, 12, 16, 17] : List Ftype)) : slice code c v = sliceP4 c v := by
  obtain ⟨h2, h2i, h4i⟩ : code ∉ ([6, 14, 18] : List Ftype) ∧ code ∉ ([7, 15, 19] : List Ftype) ∧
      code ∉ ([1, 3, 5, 9, 11, 13] : List Ftype) := by revert code; decide
  rw [slice, if_neg h2, if_neg h2i, if_neg h4i]

/-- The history never carries the inversion: the raw value of `P4I` is the level of `P4` (R120). -/
theorem sliceP4I_eq : sliceP4I c v = ⟨levelP4 c v, levelP4I c v⟩ := by
  have hraw : levelP4I c v ^^^ 2 = levelP4 c v := by
    unfold levelP4I levelP4
    repeat' split
    all_goals rfl
  rw [sliceP4I, hraw]

end

/-! ### `DBT.NEXT` alone (R116 to R121) -/

/-- A code known by its number is in the list of the codes with these numbers. -/
theorem ftype_mem_of_toInt_mem {code : Ftype} {l : List Int} (h : code.toInt ∈ l) : code ∈ l.map (BitVec.ofInt 6) :=
  List.mem_map.mpr ⟨code.toInt, h, BitVec.ofInt_toInt⟩

section
variable {s : State}

theorem exec_dbtNext_of_error (hs : Ready s) {r : Refusal} (h : dbtNext s = .error r) :
    exec .uopDbtNext s = .refused r := by
  change execUopDbtNext s = _
  rw [execUopDbtNext, h]
  exact runIn_error hs r

theorem exec_dbtNext_unlocked (hs : Ready s) (h : s.car.synctype = ftypeNone) :
    exec .uopDbtNext s = .refused .notLocked := exec_dbtNext_of_error hs (if_pos h)

theorem exec_dbtNext_reserved (hs : Ready s) (h : ¬ ftypeOk s.car.synctype) :
    exec .uopDbtNext s = .refused .reservedSynctype := by
  have hn : s.car.synctype ≠ ftypeNone := fun he => h (he ▸ ftypeOk_none)
  have hl : synctypeLegal s = false := Bool.eq_false_iff.mpr (mt synctypeLegal_iff.mp h)
  exact exec_dbtNext_of_error hs (by rw [dbtNext, if_neg hn, if_pos hl])

/-- Under a lock `DBT.NEXT` pushes the raw value of the policy's slice and returns its logical one. -/
theorem exec_dbtNext_locked (hs : Ready s) (h0 : 0 ≤ s.car.synctype.toInt) (h19 : s.car.synctype.toInt ≤ 19) {c : Slice}
    (hc : slice s.car.synctype s.car s.str.symbol = c) :
    exec .uopDbtNext s = .next { histPush c.raw s with ret := .dibit c.ret } := by
  have hn : s.car.synctype ≠ ftypeNone := fun he => absurd (he ▸ h0) (by decide)
  have hl : synctypeLegal s = true := synctypeLegal_iff.mpr ⟨by omega, h19⟩
  have hd : dbtNext s = .ok (histPush c.raw s, c.ret) := dbtNext_ok_iff.mpr ⟨hn, hl, by rw [hc], by rw [hc]⟩
  change execUopDbtNext s = _
  rw [execUopDbtNext, hd]
  exact runIn_ok hs _

end

/-- The four intervals of the levels, told apart by the side of `center` a symbol is on and whether it is an outer one. -/
theorem ite_level_eq_ite_outer {α : Type} (c : CarRegs) (v : Sample) (p q r t : α) :
    let above : Bool := decide (c.center.toInt < v.toInt)
    let outer : Bool := if above then decide (c.umid.toInt < v.toInt) else decide (v.toInt < c.lmid.toInt)
    (if c.center.toInt < v.toInt then (if c.umid.toInt < v.toInt then p else q)
      else (if v.toInt < c.lmid.toInt then r else t)) =
      if above then (if outer then p else q) else (if outer then r else t) := by
  by_cases h : c.center.toInt < v.toInt
  · simp [h]
  · simp [h]

/-- Settles O35: the refusals, and the slice of each policy written out. -/
theorem dbtNextSlicesByFrameType : Obligations.DbtNextSlicesByFrameType := by
  intro s hs code v above outer pushed four
  have answer : ∀ {l : List Int} {c : Slice}, code ∈ l → (∀ x ∈ l, 0 ≤ x ∧ x ≤ 19) →
      slice s.car.synctype s.car s.str.symbol = c → exec .uopDbtNext s = .next (pushed c.raw c.ret) :=
    fun h hl hc => exec_dbtNext_locked hs (hl _ h).1 (hl _ h).2 hc
  have hraw : levelP4 s.car s.str.symbol = four := ite_level_eq_ite_outer s.car s.str.symbol 1 0 3 2
  refine ⟨?unlocked, ?reserved, ?p2, ?p2i, ?p4i, ?p4⟩
  case unlocked =>
    intro h
    exact exec_dbtNext_unlocked hs (BitVec.eq_of_toInt_eq h)
  case reserved =>
    intro h
    exact exec_dbtNext_reserved hs fun ⟨_, _⟩ => by omega
  case p2 =>
    intro h
    have hslice : sliceP2 s.car s.str.symbol = if above then ⟨1, 0⟩ else ⟨3, 1⟩ :=
      if_congr decide_eq_true_iff.symm rfl rfl
    rw [answer h (by decide) ((slice_P2 _ _ (ftype_mem_of_toInt_mem h)).trans hslice)]
    split <;> rfl
  case p2i =>
    intro h
    have hslice : sliceP2I s.car s.str.symbol = if above then ⟨1, 1⟩ else ⟨3, 0⟩ :=
      if_congr decide_eq_true_iff.symm rfl rfl
    rw [answer h (by decide) ((slice_P2I _ _ (ftype_mem_of_toInt_mem h)).trans hslice)]
    split <;> rfl
  case p4i =>
    intro h
    have hret : levelP4I s.car s.str.symbol = if above then (if outer then 3 else 2) else (if outer then 1 else 0) :=
      ite_level_eq_ite_outer s.car s.str.symbol 3 2 1 0
    have hslice := sliceP4I_eq s.car s.str.symbol
    rw [hraw, hret] at hslice
    exact answer h (by decide) ((slice_P4I _ _ (ftype_mem_of_toInt_mem h)).trans hslice)
  case p4 =>
    intro h
    have hslice : sliceP4 s.car s.str.symbol = ⟨four, four⟩ := by rw [sliceP4, hraw]
    exact answer h (by decide) ((slice_P4 _ _ (ftype_mem_of_toInt_mem h)).trans hslice)

/-! ### The polarity of the signal and of the lock (R122) -/

/-- The logical value of a two-level slice is the high bit of its raw value, inverted by an odd code (R117, R118). -/
theorem twoLevel_raw_ret {code : Ftype} (h : code ∈ ([6, 7, 14, 15, 18, 19] : List Ftype)) (c : CarRegs) (v : Sample) :
    ((slice code c v).raw = 1 ∨ (slice code c v).raw = 3) ∧
      (slice code c v).ret = ((slice code c v).raw >>> 1) ^^^ (code.extractLsb' 0 1).setWidth 2 := by
  have hcode : (code ∈ ([6, 14, 18] : List Ftype) ∧ code.extractLsb' 0 1 = 0) ∨
      (code ∈ ([7, 15, 19] : List Ftype) ∧ code.extractLsb' 0 1 = 1) := by revert code; decide
  obtain ⟨hcode, hpar⟩ | ⟨hcode, hpar⟩ := hcode
  · rw [slice_P2 c v hcode, hpar, sliceP2]
    split <;> decide
  · rw [slice_P2I c v hcode, hpar, sliceP2I]
    split <;> decide

section
variable {c : CarRegs} {v : Sample}

/-- A symbol off `center` and its inverse are on opposite sides of a `center` of 0. -/
theorem center_lt_neg_iff (hc : c.center = 0) (h0 : v.toInt ≠ 0) (hneg : (-v).toInt = -v.toInt) :
    c.center.toInt < (-v).toInt ↔ ¬ c.center.toInt < v.toInt := by
  have hz : c.center.toInt = 0 := hc ▸ rfl
  omega

theorem sliceP2I_neg (hside : c.center.toInt < (-v).toInt ↔ ¬ c.center.toInt < v.toInt) :
    sliceP2I c (-v) = ⟨(sliceP2 c v).raw ^^^ 2, (sliceP2 c v).ret⟩ := by
  by_cases h : c.center.toInt < v.toInt
  · rw [sliceP2I, if_neg (mt hside.mp (not_not.mpr h)), sliceP2, if_pos h]
    rfl
  · rw [sliceP2I, if_pos (hside.mpr h), sliceP2, if_neg h]
    rfl

theorem levelP4I_neg (hside : c.center.toInt < (-v).toInt ↔ ¬ c.center.toInt < v.toInt)
    (hsym : c.lmid.toInt = -c.umid.toInt) (hneg : (-v).toInt = -v.toInt) : levelP4I c (-v) = levelP4 c v := by
  have houter : (-v).toInt < c.lmid.toInt ↔ c.umid.toInt < v.toInt := by omega
  have houter' : c.umid.toInt < (-v).toInt ↔ v.toInt < c.lmid.toInt := by omega
  simp only [levelP4I, levelP4, hside, houter, houter', ite_not]

theorem sliceP4I_neg (hlevel : levelP4I c (-v) = levelP4 c v) :
    sliceP4I c (-v) = ⟨(sliceP4 c v).raw ^^^ 2, (sliceP4 c v).ret⟩ := by
  rw [sliceP4I, hlevel]
  rfl

/-- Where the levels are symmetric, a symbol and its inverse, under a code and the code of the other polarity, have the
same logical dibit and opposite raw ones. -/
theorem slice_neg (hc : c.center = 0) (hsym : c.lmid.toInt = -c.umid.toInt) (h0 : v.toInt ≠ 0)
    (hmin : v.toInt ≠ -32768) {p : Ftype × Ftype}
    (hp : p ∈ ([(12, 11), (10, 13), (6, 7), (18, 19)] : List (Ftype × Ftype))) :
    slice p.2 c (-v) = ⟨(slice p.1 c v).raw ^^^ 2, (slice p.1 c v).ret⟩ := by
  have hneg : (-v).toInt = -v.toInt := BitVec.toInt_neg_of_ne_intMin fun he => hmin (he ▸ rfl)
  have hside := center_lt_neg_iff hc h0 hneg
  have hpolicy : (p.1 ∈ ([0, 2, 4, 8, 10, 12, 16, 17] : List Ftype) ∧ p.2 ∈ ([1, 3, 5, 9, 11, 13] : List Ftype)) ∨
      (p.1 ∈ ([6, 14, 18] : List Ftype) ∧ p.2 ∈ ([7, 15, 19] : List Ftype)) := by
    simp only [List.mem_cons, List.not_mem_nil, or_false] at hp
    rcases hp with rfl | rfl | rfl | rfl <;> decide
  obtain ⟨h1, h2⟩ | ⟨h1, h2⟩ := hpolicy
  · rw [slice_P4I c (-v) h2, slice_P4 c v h1]
    exact sliceP4I_neg (levelP4I_neg hside hsym hneg)
  · rw [slice_P2I c (-v) h2, slice_P2 c v h1]
    exact sliceP2I_neg hside

end

/-- Settles O36: policy by policy, then the two polarities of a code against those of the symbol. -/
theorem polarityOfSignalAndLockCancel : Obligations.PolarityOfSignalAndLockCancel := by
  intro c v
  refine ⟨fun code h => ?p4i, fun code h => ?p4, fun code h => twoLevel_raw_ret h c v, ?inverse⟩
  case p4i =>
    rw [slice_P4I c v h, sliceP4I, BitVec.xor_assoc, BitVec.xor_self, BitVec.xor_zero]
  case p4 =>
    rw [slice_P4 c v h]
    rfl
  case inverse =>
    intro hc hsym h0 _ _ hmin p hp
    rw [slice_neg hc hsym h0 hmin hp]
    exact ⟨rfl, rfl⟩

/-! ### One entry of the history per symbol (R121, R201) -/

/-- The history of `t` is one push onto that of `s` (R42). -/
def PushedOnce (s t : State) : Prop := ∃ d, t.hist = (histPush d s).hist

theorem PushedOnce.of_hist_eq {s t u : State} (h : PushedOnce s t) (hu : u.hist = t.hist) : PushedOnce s u :=
  h.imp fun _ hd => hu.trans hd

theorem dbtNext_pushedOnce {s t : State} {d : Dibit} (h : dbtNext s = .ok (t, d)) : PushedOnce s t := by
  obtain ⟨-, -, rfl, -⟩ := dbtNext_ok_iff.mp h
  exact ⟨_, rfl⟩

theorem searchIntake_pushedOnce (v : Sample) (s : State) : PushedOnce s (searchIntake v s) := by
  refine ⟨searchDibit s v, ?_⟩
  rw [searchIntake, ageHint_hist, shiftWindow_hist, modulationWindow_hist]
  rfl

/-! What comes after the push writes no history: the search, the entries, the slots, the segments of D-STAR. -/

theorem searchMiss_hist (s : State) : (searchMiss s).1.hist = s.hist := by
  obtain h | h := searchMiss_cases s <;> simp [h]

theorem fsStep_pushedOnce (v : Sample) (s : State) : PushedOnce s (fsStep v s).1 := by
  refine (searchIntake_pushedOnce v s).of_hist_eq ?_
  obtain ⟨-, h⟩ | ⟨r, -, h | ⟨-, h⟩⟩ := fsStep_cases v s
  · rw [h, searchMiss_hist]
  · rw [h]
    rfl
  · rw [h, searchMiss_hist]
    rfl

theorem enter_hist {code : Ftype} {s t : State} (h : enter code s = .ok t) : t.hist = s.hist := by
  obtain ⟨-, h⟩ | ⟨-, h⟩ | ⟨-, rfl⟩ | ⟨-, rfl⟩ | ⟨-, rfl⟩ := enter_ok h
  · obtain ⟨-, dmr, events, rfl, -⟩ := dmrvEnter_ok h
    rfl
  · obtain ⟨-, dmr, events, rfl, -⟩ := dmrdEnter_ok h
    rfl
  · rfl
  · rfl
  · rfl

theorem react_hist {r : SyncResult} {s t : State} (h : react r s = .ok t) : t.hist = s.hist := by
  cases r with
  | none =>
    cases h
    rfl
  | noSync =>
    cases h
    rfl
  | sync code =>
    rw [react, lockOn_eq] at h
    rw [enter_hist h]

theorem process_hist (idx : Nat) (d : Dibit) (s : State) : (process idx d s).hist = s.hist := by
  obtain ⟨dmr, events, h, -, -⟩ := process_frame idx d s
  rw [h]

theorem voiceBit_hist (b : Bool) (s : State) : (voiceBit b s).hist = s.hist := by
  obtain ⟨-, h⟩ | ⟨-, dfr, events, h⟩ := voiceBit_cases b s
  · rw [h]
    rfl
  · rw [h]

theorem endSegment_hist (s : State) : (endSegment s).hist = s.hist := by
  obtain ⟨-, h⟩ | ⟨-, h⟩ := endSegment_cases s
  · rw [h, toSearch_hist]
  · rw [h]

theorem evaluate_hist (s : State) : (evaluate s).hist = s.hist := by
  obtain ⟨-, h⟩ | ⟨-, -, h⟩ | ⟨-, -, h⟩ := evaluate_cases s
  · rw [h, endSegment_hist]
  · rw [h]
    rfl
  · rw [h, endSegment_hist]
    rfl

theorem dataBit_hist (b : Bool) (s : State) : (dataBit b s).hist = s.hist := by
  simp only [dataBit]
  split
  · rw [evaluate_hist]
  · rfl

/-! The operation of each state of the state machine pushes once. -/

section
variable {s t : State}

theorem onSearch_pushedOnce {v : Sample} (h : onSearch v s = .ok t) : PushedOnce s t :=
  (fsStep_pushedOnce v s).of_hist_eq (react_hist h)

theorem dmrvStep_pushedOnce (h : dmrvStep s = .ok t) : PushedOnce s t := by
  obtain ⟨u, d, hu, rfl⟩ := dmrvStep_ok h
  refine (dbtNext_pushedOnce hu).of_hist_eq ?_
  dsimp only
  split
  · exact process_hist _ d u
  · exact process_hist _ d u

theorem dmrdStep_pushedOnce (h : dmrdStep s = .ok t) : PushedOnce s t := by
  obtain ⟨u, d, hu, rfl⟩ := dmrdStep_ok h
  refine (dbtNext_pushedOnce hu).of_hist_eq ?_
  dsimp only
  split <;> rfl

theorem intake_pushedOnce {b : Bool} (h : intake s = .ok (t, b)) : PushedOnce s t := by
  obtain ⟨u, d, hu, -, rfl⟩ := intake_ok h
  exact (dbtNext_pushedOnce hu).of_hist_eq rfl

theorem dstvBit_pushedOnce (h : dstvBit s = .ok t) : PushedOnce s t := by
  obtain ⟨-, u, b, hu, rfl⟩ := dstvBit_ok h
  exact (intake_pushedOnce hu).of_hist_eq (voiceBit_hist b u)

theorem dstdBit_pushedOnce (h : dstdBit s = .ok t) : PushedOnce s t := by
  obtain ⟨-, u, b, hu, rfl⟩ := dstdBit_ok h
  exact (intake_pushedOnce hu).of_hist_eq (dataBit_hist b u)

theorem dsthBit_pushedOnce (h : dsthBit s = .ok t) : PushedOnce s t := by
  obtain ⟨u, d, hu, ⟨-, rfl⟩ | ⟨-, w, hw, rfl⟩⟩ := dsthBit_ok h
  · exact (dbtNext_pushedOnce hu).of_hist_eq rfl
  · obtain ⟨-, rfl⟩ := dsthDecode_ok hw
    exact (dbtNext_pushedOnce hu).of_hist_eq rfl

/-- Whatever the dispatch word of a state selects, it pushes once (R121). -/
theorem selectOperation_pushedOnce {u : State} (h : selectOperation (dispatchWord u) s = .ok t) : PushedOnce s t := by
  obtain ⟨-, h⟩ | ⟨-, h⟩ | ⟨-, h⟩ | ⟨-, h | h⟩ | ⟨-, h⟩ := selectOperation_ok h
  · exact onSearch_pushedOnce h
  · exact dmrvStep_pushedOnce h
  · exact dmrdStep_pushedOnce h
  · exact dstvBit_pushedOnce h
  · exact dstdBit_pushedOnce h
  · exact dsthBit_pushedOnce h

end

/-- Whether a sample completes a symbol is a matter of the sample index and the period's length alone (R80, R84). -/
theorem strPush_none_iff (v : Sample) (sync : Bool) (s : State) :
    (strPush v sync s).2 = none ↔ (countUp .sidx s.str.sidx).toNat < s.str.plen.toNat := by
  rw [← strIntake_sidx v sync s, ← strIntake_plen v sync s]
  by_cases h : (strIntake v sync s).str.sidx.toNat < (strIntake v sync s).str.plen.toNat
  · simp only [strPush_inside h, h]
  · simp only [strPush_boundary h, h, reduceCtorEq]

/-- Settles O19: `STR.PUSH` writes no history, and the operation a symbol then gets pushes once. -/
theorem oneHistoryEntryPerSymbol : Obligations.OneHistoryEntryPerSymbol := by
  intro s t v ht
  have hpush : orcPush v s = .ok t := ok_of_runIn ht
  have hsame : (strPush v (haveSync s) { s with events := [] }).2 = none ↔ (strPush v (haveSync s) s).2 = none :=
    (strPush_none_iff _ _ _).trans (strPush_none_iff _ _ s).symm
  obtain ⟨str, maj, hframe⟩ := strPush_frame v (haveSync s) { s with events := [] }
  obtain ⟨hnone, hk⟩ | ⟨y, hsome, hk⟩ := orcPush_cases v s
  · cases hk.symm.trans hpush
    exact ⟨fun _ => by rw [hframe], fun h => absurd (hsame.mp hnone) h⟩
  · rw [hframe] at hk
    have honce := selectOperation_pushedOnce (hk.symm.trans hpush)
    exact ⟨fun h => (nomatch hsome.symm.trans (hsame.mpr h)), fun _ => honce⟩

end Sys2Proof.Machine
end

section
/-! The statements of spec/43_descrambler_deinterleaver.md: the descrambler undoes itself, and the deinterleaver is the
permutation `K` of the 660 positions, the interleaver its inverse. -/

-- One declaration at a time, as in the tests, keeps the memory of the one-text compile small.
set_option Elab.async false

namespace Sys2Proof.Machine

/-- Blocks with the same 660 bits are equal. -/
theorem block_ext {x y : Block} (h : ∀ i, i < 660 → x.getLsbD i = y.getLsbD i) : x = y :=
  BitVec.eq_of_getLsbD_eq h

/-! ### The descrambler (R125, R126) -/

/-- Bit `i` of a descrambled block: the table index stays below its period of 720 (R126). -/
theorem getLsbD_descramble (scr : Nat) (x : Block) {i : Nat} (h : i < 660) :
    (descramble scr x).getLsbD i = (x.getLsbD i ^^ scr.testBit i) := by
  rw [descramble, getLsbD_ofBits_lt _ h, Nat.mod_eq_of_lt (by omega)]

/-- The descrambler undoes itself, for any table (R126). -/
theorem descramble_descramble (scr : Nat) (x : Block) : descramble scr (descramble scr x) = x :=
  block_ext fun i hi => by
    rw [getLsbD_descramble _ _ hi, getLsbD_descramble _ _ hi, Bool.xor_assoc, Bool.xor_self, Bool.xor_false]

/-- A wrong bit before the descrambler is the same wrong bit after it. -/
theorem descramble_xor (scr : Nat) (x e : Block) : descramble scr (x ^^^ e) = descramble scr x ^^^ e :=
  block_ext fun i hi => by
    simp only [BitVec.getLsbD_xor, getLsbD_descramble _ _ hi]
    exact Bool.xor_right_comm _ _ _

/-- Settles O38: each bit is XORed with its entry of the table, twice with the same one. -/
theorem descrambleTwiceIsTheIdentity : Obligations.DescrambleTwiceIsTheIdentity := by
  intro s x hs
  refine ⟨descramble s.cfg.romScr x, runIn_ok hs _, fun i hi => getLsbD_descramble _ x hi, ?_⟩
  have hback : exec (.uopDscXor660 (descramble s.cfg.romScr x)) s =
      .next { s with ret := .block (descramble s.cfg.romScr (descramble s.cfg.romScr x)) } := runIn_ok hs _
  rwa [descramble_descramble] at hback

/-! ### The output index `K` (R128, R129) -/

/-- `K` in closed form (R129): 12 columns of 28 bits, then 12 of 27, with stride 24. -/
def strideIndex (i : Nat) : Nat :=
  if i < 336 then i / 28 + 24 * (i % 28) else 12 + (i - 336) / 27 + 24 * ((i - 336) % 27)

/-- The index whose output position is `k`, in closed form. -/
def strideInverse (k : Nat) : Nat :=
  if k % 24 < 12 then 28 * (k % 24) + k / 24 else 336 + 27 * (k % 24 - 12) + k / 24

theorem strideIndex_lt {i : Nat} (h : i < 660) : strideIndex i < 660 := by
  unfold strideIndex
  split <;> omega

theorem strideInverse_lt {k : Nat} (h : k < 660) : strideInverse k < 660 := by
  unfold strideInverse
  split <;> omega

/-- Inside the block one step of the loop goes down a column or, past its end, to the next one (R128). -/
theorem nextK_strideIndex {i : Nat} (h : i + 1 < 660) : nextK (strideIndex i) = strideIndex (i + 1) := by
  simp only [nextK, strideIndex]
  split_ifs <;> omega

theorem kIndex_eq_strideIndex {i : Nat} (h : i < 660) : kIndex i = strideIndex i := by
  induction i with
  | zero => rfl
  | succ i ih => rw [kIndex, ih (by omega), nextK_strideIndex h]

theorem kIndex_lt {i : Nat} (h : i < 660) : kIndex i < 660 := kIndex_eq_strideIndex h ▸ strideIndex_lt h

/-- The column of position `K[i]`. -/
theorem strideIndex_mod {i : Nat} (h : i < 660) :
    strideIndex i % 24 = if i < 336 then i / 28 else 12 + (i - 336) / 27 := by
  unfold strideIndex
  split <;> rw [Nat.add_mul_mod_self_left, Nat.mod_eq_of_lt (by omega)]

/-- The row of position `K[i]`. -/
theorem strideIndex_div {i : Nat} (h : i < 660) : strideIndex i / 24 = if i < 336 then i % 28 else (i - 336) % 27 := by
  unfold strideIndex
  split <;> rw [Nat.add_mul_div_left _ _ (by decide), Nat.div_eq_of_lt (by omega), Nat.zero_add]

theorem strideIndex_strideInverse {k : Nat} (h : k < 660) : strideIndex (strideInverse k) = k := by
  unfold strideIndex strideInverse
  split <;> split <;> omega

theorem strideInverse_strideIndex {i : Nat} (h : i < 660) : strideInverse (strideIndex i) = i := by
  rw [strideInverse, strideIndex_mod h, strideIndex_div h]
  split_ifs <;> omega

theorem kIndex_strideInverse {k : Nat} (h : k < 660) : kIndex (strideInverse k) = k := by
  rw [kIndex_eq_strideIndex (strideInverse_lt h), strideIndex_strideInverse h]

theorem strideInverse_kIndex {i : Nat} (h : i < 660) : strideInverse (kIndex i) = i := by
  rw [kIndex_eq_strideIndex h, strideInverse_strideIndex h]

/-- No position is taken twice (R129). -/
theorem kIndex_inj {i j : Nat} (hi : i < 660) (hj : j < 660) : kIndex i = kIndex j ↔ i = j :=
  ⟨fun h => by rw [← strideInverse_kIndex hi, h, strideInverse_kIndex hj], congrArg kIndex⟩

/-- The loop's index after its last bit (R129). -/
theorem kIndex_660 : kIndex 660 = 24 := by
  rw [kIndex, kIndex_eq_strideIndex (by omega)]
  decide

/-! ### The deinterleaver's loop and the interleaver (R128, R130) -/

/-- The loop leaves a position that is `K` of no index still to come. -/
theorem getLsbD_deinterleaveFrom_other (x : Block) {n i p : Nat} (out : Block)
    (h : ∀ l, i ≤ l → l < i + n → p ≠ kIndex l) :
    (deinterleaveFrom x n i (kIndex i) out).getLsbD p = out.getLsbD p := by
  induction n generalizing i out with
  | zero => rfl
  | succ n ih =>
    have hrest := ih (i := i + 1) (setBit out (kIndex i) (x.getLsbD i)) fun l hl hl' => h l (by omega) (by omega)
    rw [getLsbD_setBit, if_neg (h i le_rfl (by omega))] at hrest
    exact hrest

/-- The loop writes input bit `l` to position `K[l]`, for good. -/
theorem getLsbD_deinterleaveFrom_kIndex (x : Block) {n i l : Nat} (out : Block) (hn : i + n ≤ 660) (hl : i ≤ l)
    (hl' : l < i + n) : (deinterleaveFrom x n i (kIndex i) out).getLsbD (kIndex l) = x.getLsbD l := by
  induction n generalizing i out with
  | zero => omega
  | succ n ih =>
    rcases hl.eq_or_lt with rfl | hlt
    · have hlater : ∀ j, i + 1 ≤ j → j < i + 1 + n → kIndex i ≠ kIndex j := fun j hj hj' h => by
        have := (kIndex_inj (by omega) (by omega)).mp h
        omega
      have hkept := getLsbD_deinterleaveFrom_other x (setBit out (kIndex i) (x.getLsbD i)) hlater
      rw [getLsbD_setBit, if_pos rfl, decide_eq_true (kIndex_lt (by omega)), Bool.true_and] at hkept
      exact hkept
    · exact ih (i := i + 1) (setBit out (kIndex i) (x.getLsbD i)) (by omega) hlt (by omega)

/-- Input bit `i` comes out at position `K[i]` (R128, R129). -/
theorem getLsbD_deinterleave_kIndex (x : Block) {i : Nat} (h : i < 660) :
    (deinterleave x).getLsbD (kIndex i) = x.getLsbD i :=
  getLsbD_deinterleaveFrom_kIndex x 0 (by omega) (Nat.zero_le i) (by omega)

/-- Position `k` holds the input bit whose index `K` takes there. -/
theorem getLsbD_deinterleave (x : Block) {k : Nat} (h : k < 660) :
    (deinterleave x).getLsbD k = x.getLsbD (strideInverse k) := by
  conv_lhs => rw [← kIndex_strideInverse h]
  exact getLsbD_deinterleave_kIndex x (strideInverse_lt h)

theorem getLsbD_interleave (x : Block) {i : Nat} (h : i < 660) : (interleave x).getLsbD i = x.getLsbD (kIndex i) :=
  getLsbD_ofBits_lt _ h

/-- The interleaver undoes the deinterleaver (R130). -/
theorem interleave_deinterleave (x : Block) : interleave (deinterleave x) = x :=
  block_ext fun i hi => by rw [getLsbD_interleave _ hi, getLsbD_deinterleave_kIndex x hi]

/-- The deinterleaver undoes the interleaver (R130). -/
theorem deinterleave_interleave (x : Block) : deinterleave (interleave x) = x :=
  block_ext fun k hk => by
    rw [getLsbD_deinterleave _ hk, getLsbD_interleave _ (strideInverse_lt hk), kIndex_strideInverse hk]

/-- Wrong bits before the deinterleaver are wrong bits after it, at their new places. -/
theorem deinterleave_xor (x e : Block) : deinterleave (x ^^^ e) = deinterleave x ^^^ deinterleave e :=
  block_ext fun k hk => by simp only [BitVec.getLsbD_xor, getLsbD_deinterleave _ hk]

/-- A single bit is moved by `K`. -/
theorem deinterleave_twoPow {j : Nat} (h : j < 660) :
    deinterleave (BitVec.twoPow 660 j) = BitVec.twoPow 660 (kIndex j) := by
  refine block_ext fun k hk => ?_
  have hplace : j = strideInverse k ↔ kIndex j = k :=
    ⟨fun hj => hj ▸ kIndex_strideInverse hk, fun hj => hj ▸ (strideInverse_kIndex h).symm⟩
  simp only [getLsbD_deinterleave _ hk, BitVec.getLsbD_twoPow, h, kIndex_lt h, decide_true, Bool.true_and, hplace]

/-- Settles O39: `K` and its inverse in closed form, and the loop writes each input bit once, at its `K`. -/
theorem deinterleaveIsTheStridePermutation : Obligations.DeinterleaveIsTheStridePermutation := by
  refine ⟨fun i hi => ⟨kIndex_lt hi, kIndex_eq_strideIndex hi⟩, kIndex_660, fun k hk => ?_, fun s x hs => ?_⟩
  · exact ⟨strideInverse_lt hk, kIndex_strideInverse hk, fun j hj h => h ▸ (strideInverse_kIndex hj).symm⟩
  · have hback : exec (.uopDilPerm660 (interleave x)) s =
        .next { s with ret := .block (deinterleave (interleave x)) } := runIn_ok hs _
    rw [deinterleave_interleave] at hback
    exact ⟨deinterleave x, runIn_ok hs _, fun i hi => getLsbD_deinterleave_kIndex x hi, interleave_deinterleave x,
      hback⟩

end Sys2Proof.Machine
end

section
/-! Facts about the Viterbi decoder of spec/44_viterbi.md that the reception of a header rests on: the decoder answers
the input of a path of least distance, and the default code keeps different inputs 3 channel bits apart. -/

-- One declaration at a time, as in the tests, keeps the memory of the one-text compile small.
set_option Elab.async false

namespace Sys2Proof.Machine

/-! ### The Hamming distance of received pairs -/

/-- In how many bits two lists of pairs differ, as far as both go. -/
def pairDist : List (Bool × Bool) → List (Bool × Bool) → Nat
  | (a, b) :: ps, (a', b') :: qs => bitDist a a' + bitDist b b' + pairDist ps qs
  | _, _ => 0

theorem pairDist_nil (qs : List (Bool × Bool)) : pairDist [] qs = 0 := by
  unfold pairDist
  rfl

theorem bitDist_self (a : Bool) : bitDist a a = 0 := if_pos rfl

theorem bitDist_triangle (a b r : Bool) : bitDist a b ≤ bitDist r a + bitDist r b := by
  revert a b r
  decide

theorem pairDist_self (ps : List (Bool × Bool)) : pairDist ps ps = 0 := by
  induction ps with
  | nil => rfl
  | cons p ps ih => simp only [pairDist, bitDist_self, ih]

theorem pairDist_append {ps qs : List (Bool × Bool)} (h : ps.length = qs.length) (ps' qs' : List (Bool × Bool)) :
    pairDist (ps ++ ps') (qs ++ qs') = pairDist ps qs + pairDist ps' qs' := by
  induction ps generalizing qs with
  | nil =>
    cases List.length_eq_zero_iff.mp h.symm
    simp [pairDist_nil]
  | cons p ps ih =>
    cases qs with
    | nil => simp at h
    | cons q qs =>
      have hrest := ih (Nat.succ.inj h)
      simp only [List.cons_append, pairDist, hrest]
      omega

theorem pairDist_triangle {rs ps qs : List (Bool × Bool)} (hp : ps.length = rs.length) (hq : qs.length = rs.length) :
    pairDist ps qs ≤ pairDist rs ps + pairDist rs qs := by
  induction rs generalizing ps qs with
  | nil =>
    cases List.length_eq_zero_iff.mp hp
    simp [pairDist_nil]
  | cons r rs ih =>
    cases ps with
    | nil => simp at hp
    | cons p ps =>
      cases qs with
      | nil => simp at hq
      | cons q qs =>
        have hrest := ih (Nat.succ.inj hp) (Nat.succ.inj hq)
        have hfst := bitDist_triangle p.1 q.1 r.1
        have hsnd := bitDist_triangle p.2 q.2 r.2
        simp only [pairDist]
        omega

/-- One inverted channel bit is a distance of at most 1. -/
theorem pairDist_flipChannelBit_le (ps : List (Bool × Bool)) (j : Nat) : pairDist (flipChannelBit ps j) ps ≤ 1 := by
  induction ps, j using flipChannelBit.induct with
  | case1 j => simp [flipChannelBit, pairDist_nil]
  | case2 a b ps => cases a <;> simp [flipChannelBit, pairDist, bitDist, pairDist_self]
  | case3 a b ps => cases b <;> simp [flipChannelBit, pairDist, bitDist, pairDist_self]
  | case4 p ps j ih => simpa only [flipChannelBit, pairDist, bitDist_self, Nat.zero_add] using ih

/-! ### Paths through the trellis (R135, R142) -/

/-- The trellis state after inputs `us` from state `p` (R135). -/
def pathEnd (us : List Bool) (p : Trellis) : Trellis := us.foldl (fun q u => nextTrellis u q) p

theorem pathEnd_append (us vs : List Bool) (p : Trellis) : pathEnd (us ++ vs) p = pathEnd vs (pathEnd us p) :=
  List.foldl_append

theorem pathEnd_snoc (us : List Bool) (u : Bool) (p : Trellis) :
    pathEnd (us ++ [u]) p = nextTrellis u (pathEnd us p) := pathEnd_append us [u] p

/-- Two zeros lead to state 0 from anywhere (R143). -/
theorem pathEnd_tail (m : List Bool) (p : Trellis) : pathEnd (m ++ [false, false]) p = 0 := by
  have hzero : ∀ q : Trellis, nextTrellis false (nextTrellis false q) = 0 := by decide
  rw [pathEnd_append]
  exact hzero _

theorem length_convEncodeFrom (c : ConvCode) (us : List Bool) (p : Trellis) :
    (convEncodeFrom c us p).length = us.length := by
  induction us generalizing p with
  | nil => rfl
  | cons u us ih => exact congrArg (· + 1) (ih _)

theorem convEncodeFrom_append (c : ConvCode) (us vs : List Bool) (p : Trellis) :
    convEncodeFrom c (us ++ vs) p = convEncodeFrom c us p ++ convEncodeFrom c vs (pathEnd us p) := by
  induction us generalizing p with
  | nil => rfl
  | cons u us ih => exact congrArg (_ :: ·) (ih _)

/-- A path's distance grows by the branch metric of its last step (R137). -/
theorem pairDist_convEncodeFrom_snoc (c : ConvCode) {ps : List (Bool × Bool)} {us : List Bool}
    (h : us.length = ps.length) (a b u : Bool) (p : Trellis) :
    pairDist (ps ++ [(a, b)]) (convEncodeFrom c (us ++ [u]) p) =
      pairDist ps (convEncodeFrom c us p) + branchMetric c (pathEnd us p) u a b := by
  rw [convEncodeFrom_append, pairDist_append (by rw [length_convEncodeFrom, h])]
  rfl

/-- The branches into a state (R135). -/
theorem nextTrellis_eq_iff (u : Bool) (p s : Trellis) :
    nextTrellis u p = s ↔ u = inputOf s ∧ (p = pred0 s ∨ p = pred1 s) := by
  revert u p s
  decide

/-! ### Add-compare-select and traceback (R136 to R141) -/

theorem trellis_cases (s : Trellis) : s = 0 ∨ s = 1 ∨ s = 2 ∨ s = 3 := by
  revert s
  decide

/-- The bits of four decisions put side by side. -/
theorem getLsbD_fourBits (b3 b2 b1 b0 : Bool) :
    let v : BitVec 4 := BitVec.ofBool b3 ++ BitVec.ofBool b2 ++ BitVec.ofBool b1 ++ BitVec.ofBool b0
    v.getLsbD 0 = b0 ∧ v.getLsbD 1 = b1 ∧ v.getLsbD 2 = b2 ∧ v.getLsbD 3 = b3 := by
  revert b3 b2 b1 b0
  decide

section
variable (c : ConvCode) (m : Metrics) (a b : Bool) (s : Trellis)

/-- The predecessor the decision names (R138). -/
def chosenPred : Trellis := if acsBit c m a b s then pred1 s else pred0 s

theorem metricAt_acsAll : metricAt (acsAll c m a b) s = acsMetric c m a b s := by
  obtain rfl | rfl | rfl | rfl := trellis_cases s <;> rfl

theorem getLsbD_decisions : (decisions c m a b).getLsbD s.toNat = acsBit c m a b s := by
  obtain ⟨h0, h1, h2, h3⟩ :=
    getLsbD_fourBits (acsBit c m a b 3) (acsBit c m a b 2) (acsBit c m a b 1) (acsBit c m a b 0)
  obtain rfl | rfl | rfl | rfl := trellis_cases s
  exacts [h0, h1, h2, h3]

/-- The kept metric is that of the chosen predecessor's path (R138). -/
theorem acsMetric_eq_chosen : acsMetric c m a b s = pathInto c m s (chosenPred c m a b s) a b := by
  unfold acsMetric chosenPred acsBit
  split <;> simp [*]

/-- The kept metric is the lower one (R138). -/
theorem acsMetric_le {p : Trellis} (h : p = pred0 s ∨ p = pred1 s) :
    acsMetric c m a b s ≤ pathInto c m s p a b := by
  unfold acsMetric
  obtain rfl | rfl := h <;> split <;> omega

theorem chosenPred_mem : chosenPred c m a b s = pred0 s ∨ chosenPred c m a b s = pred1 s := by
  unfold chosenPred
  split
  · exact .inr rfl
  · exact .inl rfl

theorem nextTrellis_chosenPred : nextTrellis (inputOf s) (chosenPred c m a b s) = s :=
  (nextTrellis_eq_iff _ _ s).mpr ⟨rfl, chosenPred_mem c m a b s⟩

end

/-- The path metrics after the received pairs, and the path memory, newest pair first (R136, R141). -/
def received (c : ConvCode) (ps : List (Bool × Bool)) : Metrics × List (BitVec 4) := forward c ps startMetrics []

theorem forward_append (c : ConvCode) (ps qs : List (Bool × Bool)) (m : Metrics) (mem : List (BitVec 4)) :
    forward c (ps ++ qs) m mem = forward c qs (forward c ps m mem).1 (forward c ps m mem).2 := by
  induction ps generalizing m mem with
  | nil => rfl
  | cons p ps ih => exact ih _ _

theorem received_snoc (c : ConvCode) (ps : List (Bool × Bool)) (a b : Bool) :
    received c (ps ++ [(a, b)]) =
      (acsAll c (received c ps).1 a b, decisions c (received c ps).1 a b :: (received c ps).2) :=
  forward_append c ps [(a, b)] startMetrics []

/-- No path into a state is nearer to the received pairs than its metric. -/
theorem metric_le_pairDist (c : ConvCode) (ps : List (Bool × Bool)) {us : List Bool} (h : us.length = ps.length)
    (p : Trellis) : metricAt (received c ps).1 (pathEnd us p) ≤ pairDist ps (convEncodeFrom c us p) := by
  induction ps using List.reverseRecOn generalizing us with
  | nil =>
    have hstart : ∀ s, metricAt startMetrics s = 0 := by decide
    exact (hstart _).le.trans (Nat.zero_le _)
  | append_singleton ps ab ih =>
    obtain ⟨a, b⟩ := ab
    obtain rfl | ⟨vs, u, rfl⟩ := List.eq_nil_or_concat' us
    · simp at h
    have hvs : vs.length = ps.length := by simpa using h
    obtain ⟨hu, hpred⟩ := (nextTrellis_eq_iff u (pathEnd vs p) _).mp rfl
    rw [pathEnd_snoc, received_snoc, metricAt_acsAll, pairDist_convEncodeFrom_snoc c hvs]
    calc acsMetric c (received c ps).1 a b (nextTrellis u (pathEnd vs p))
        ≤ metricAt (received c ps).1 (pathEnd vs p) + branchMetric c (pathEnd vs p) u a b := by
          have hle := acsMetric_le c (received c ps).1 a b _ hpred
          rwa [pathInto, ← hu] at hle
      _ ≤ _ := Nat.add_le_add_right (ih hvs) _

/-- The traceback from `s` walks a path that attains the metric of `s` (R139, R140): inputs `us` from state `p`. -/
structure Traced (c : ConvCode) (ps : List (Bool × Bool)) (s p : Trellis) (us : List Bool) : Prop where
  length : us.length = ps.length
  ends : pathEnd us p = s
  bits : ∀ out, tracebackFrom (received c ps).2 s out = us ++ out
  metric : pairDist ps (convEncodeFrom c us p) = metricAt (received c ps).1 s

/-- The path traced to the chosen predecessor, one step longer. -/
theorem Traced.snoc {c : ConvCode} {ps : List (Bool × Bool)} {a b : Bool} {s p : Trellis} {us : List Bool}
    (h : Traced c ps (chosenPred c (received c ps).1 a b s) p us) :
    Traced c (ps ++ [(a, b)]) s p (us ++ [inputOf s]) where
  length := by simp [h.length]
  ends := by rw [pathEnd_snoc, h.ends, nextTrellis_chosenPred]
  bits out := by
    rw [received_snoc, tracebackFrom, getLsbD_decisions, List.append_assoc]
    exact h.bits (inputOf s :: out)
  metric := by
    rw [pairDist_convEncodeFrom_snoc c h.length, h.ends, h.metric, received_snoc, metricAt_acsAll, acsMetric_eq_chosen]
    rfl

theorem exists_traced (c : ConvCode) (ps : List (Bool × Bool)) (s : Trellis) : ∃ p us, Traced c ps s p us := by
  induction ps using List.reverseRecOn generalizing s with
  | nil =>
    have hstart : ∀ s, metricAt startMetrics s = 0 := by decide
    exact ⟨s, [], rfl, rfl, fun out => rfl, (hstart s).symm⟩
  | append_singleton ps ab ih =>
    obtain ⟨p, us, h⟩ := ih (chosenPred c (received c ps).1 ab.1 ab.2 s)
    exact ⟨p, _, h.snoc⟩

/-- The decoder's answer is the input of a path into state 0 that no other path into state 0 is nearer than. -/
theorem viterbi_nearest (c : ConvCode) (ps : List (Bool × Bool)) :
    ∃ p, (viterbi c ps).length = ps.length ∧ pathEnd (viterbi c ps) p = 0 ∧
      ∀ us q, us.length = ps.length → pathEnd us q = 0 →
        pairDist ps (convEncodeFrom c (viterbi c ps) p) ≤ pairDist ps (convEncodeFrom c us q) := by
  obtain ⟨p, vs, h⟩ := exists_traced c ps 0
  have hvs : viterbi c ps = vs := (h.bits []).trans (List.append_nil vs)
  refine ⟨p, hvs ▸ h.length, hvs ▸ h.ends, fun us q hus hq => ?_⟩
  rw [hvs, h.metric, ← hq]
  exact metric_le_pairDist c ps hus q

/-! ### The distance of the default code (R135, R143) -/

/-- The least distance between two paths of the default code that are to meet, by the difference of their states. -/
def gapBound (d : Trellis) : Nat := if d = 0 then 0 else if d = 2 then 2 else 3

/-- In how many channel bits two paths of the default code differ in a step, with inputs
`u` from `p` and `v` from `q`. -/
def stepDist (p q : Trellis) (u v : Bool) : Nat :=
  branchMetric ⟨7, 5⟩ q v (codeG1 ⟨7, 5⟩ u p) (codeG2 ⟨7, 5⟩ u p)

/-- A step costs two paths at least what it takes off the bound. -/
theorem gapBound_step (p q : Trellis) (u v : Bool) :
    gapBound (p ^^^ q) ≤ stepDist p q u v + gapBound (nextTrellis u p ^^^ nextTrellis v q) := by
  revert p q u v
  decide

/-- A step with different inputs leaves a distance of at least 3 in all. -/
theorem three_le_step (p q : Trellis) {u v : Bool} (h : u ≠ v) :
    3 ≤ stepDist p q u v + gapBound (nextTrellis u p ^^^ nextTrellis v q) := by
  revert p q u v
  decide

theorem gapBound_le_pairDist {us vs : List Bool} {p q : Trellis} (hl : us.length = vs.length)
    (he : pathEnd us p = pathEnd vs q) :
    gapBound (p ^^^ q) ≤ pairDist (convEncodeFrom ⟨7, 5⟩ us p) (convEncodeFrom ⟨7, 5⟩ vs q) := by
  induction us generalizing vs p q with
  | nil =>
    cases List.length_eq_zero_iff.mp hl.symm
    have hpq : p = q := he
    simp [hpq, gapBound]
  | cons u us ih =>
    cases vs with
    | nil => simp at hl
    | cons v vs => exact (gapBound_step p q u v).trans (Nat.add_le_add_left (ih (Nat.succ.inj hl) he) _)

/-- Different inputs that meet are at least 3 channel bits apart, whatever states they start from: the default code
corrects one error. -/
theorem inputs_eq_of_pairDist_le {us vs : List Bool} {p q : Trellis} (hl : us.length = vs.length)
    (he : pathEnd us p = pathEnd vs q)
    (hd : pairDist (convEncodeFrom ⟨7, 5⟩ us p) (convEncodeFrom ⟨7, 5⟩ vs q) ≤ 2) : us = vs := by
  induction us generalizing vs p q with
  | nil => exact (List.length_eq_zero_iff.mp hl.symm).symm
  | cons u us ih =>
    cases vs with
    | nil => simp at hl
    | cons v vs =>
      have hl' := Nat.succ.inj hl
      have hsplit : pairDist (convEncodeFrom ⟨7, 5⟩ (u :: us) p) (convEncodeFrom ⟨7, 5⟩ (v :: vs) q) =
          stepDist p q u v +
            pairDist (convEncodeFrom ⟨7, 5⟩ us (nextTrellis u p)) (convEncodeFrom ⟨7, 5⟩ vs (nextTrellis v q)) := rfl
      have he' : pathEnd us (nextTrellis u p) = pathEnd vs (nextTrellis v q) := he
      have hrest := gapBound_le_pairDist hl' he'
      have huv : u = v := by
        by_contra hne
        have := three_le_step p q hne
        omega
      rw [huv, ih hl' he' (by omega)]

/-- What lies within one channel bit of an encoded message with a zero tail decodes to the message (R143). -/
theorem viterbi_of_pairDist_le_one {ps : List (Bool × Bool)} (m : List Bool)
    (hl : ps.length = (m ++ [false, false]).length)
    (hd : pairDist ps (convEncode ⟨7, 5⟩ (m ++ [false, false])) ≤ 1) : viterbi ⟨7, 5⟩ ps = m ++ [false, false] := by
  obtain ⟨p, hlen, hend, hnear⟩ := viterbi_nearest ⟨7, 5⟩ ps
  have hbest := hnear _ 0 hl.symm (pathEnd_tail m 0)
  have htri := pairDist_triangle (rs := ps) (ps := convEncodeFrom ⟨7, 5⟩ (viterbi ⟨7, 5⟩ ps) p)
    (qs := convEncode ⟨7, 5⟩ (m ++ [false, false])) (by rw [length_convEncodeFrom, hlen])
    (by rw [convEncode, length_convEncodeFrom, hl])
  rw [convEncode] at hd htri
  exact inputs_eq_of_pairDist_le (hlen.trans hl) (hend.trans (pathEnd_tail m 0).symm) (by omega)

/-! ### Blocks as pairs (R136, R142) -/

theorem length_pairsOf (x : Block) : (pairsOf x).length = 330 := by simp [pairsOf]

/-- The block of 330 pairs holds these pairs. -/
theorem pairsOf_blockOfPairs {ps : List (Bool × Bool)} (h : ps.length = 330) : pairsOf (blockOfPairs ps) = ps := by
  refine List.ext_getElem ((length_pairsOf _).trans h.symm) fun t ht ht' => ?_
  have hlt : t < 330 := h ▸ ht'
  have hpair : ps.getD t (false, false) = ps[t] := List.getD_eq_getElem ps _ ht'
  have hfst : (blockOfPairs ps).getLsbD (2 * t) = ps[t].1 := by
    rw [blockOfPairs, getLsbD_ofBits_lt _ (by omega), if_pos (by omega), Nat.mul_div_cancel_left _ (by decide), hpair]
  have hsnd : (blockOfPairs ps).getLsbD (2 * t + 1) = ps[t].2 := by
    rw [blockOfPairs, getLsbD_ofBits_lt _ (by omega), if_neg (by omega), show (2 * t + 1) / 2 = t by omega, hpair]
  simp only [pairsOf, List.getElem_map, List.getElem_range, hfst, hsnd]

/-- The pairs with a channel bit inverted, pair by pair. -/
theorem getElem?_flipChannelBit (ps : List (Bool × Bool)) (j t : Nat) :
    (flipChannelBit ps j)[t]? = ps[t]?.map fun p => (p.1 ^^ decide (j = 2 * t), p.2 ^^ decide (j = 2 * t + 1)) := by
  induction ps, j using flipChannelBit.induct generalizing t with
  | case1 j => simp [flipChannelBit]
  | case2 a b ps => cases t <;> simp [flipChannelBit]
  | case3 a b ps =>
    cases t with
    | zero => simp [flipChannelBit]
    | succ t =>
      have hne : 1 ≠ 2 * (t + 1) := by omega
      simp [flipChannelBit, hne]
  | case4 p ps j ih =>
    cases t with
    | zero => simp [flipChannelBit]
    | succ t => simp [flipChannelBit, ih, Nat.mul_add]

/-- A wrong bit of a block is a wrong channel bit of its pairs. -/
theorem pairsOf_xor_twoPow (x : Block) (j : Nat) :
    pairsOf (x ^^^ BitVec.twoPow 660 j) = flipChannelBit (pairsOf x) j := by
  refine List.ext_getElem? fun t => ?_
  rw [getElem?_flipChannelBit]
  rcases Nat.lt_or_ge t 330 with ht | ht
  · have hfst : j = 2 * t → j < 660 := by omega
    have hsnd : j = 2 * t + 1 → j < 660 := by omega
    simpa [pairsOf, ht] using ⟨hfst, hsnd⟩
  · rw [List.getElem?_eq_none (by rwa [length_pairsOf]), List.getElem?_eq_none (by rwa [length_pairsOf])]
    rfl

end Sys2Proof.Machine
end

section
/-! The statement of spec/46_dstar_slot.md on a transmitted header: its block comes back through descrambler,
deinterleaver, decoder and packing. -/

-- One declaration at a time, as in the tests, keeps the memory of the one-text compile small.
set_option Elab.async false

namespace Sys2Proof.Machine

/-! ### The message of a header (R191) -/

/-- The 328 bits of a header, least significant bit of each byte first. -/
def headerBody (h : Vector Byte 41) : List Bool :=
  (List.range 328).map fun i => (h.toList.getD (i / 8) 0).getLsbD (i % 8)

/-- The message is the header's bits and the two tail zeros (R143). -/
theorem headerMessage_eq (h : Vector Byte 41) : headerMessage h = headerBody h ++ [false, false] := by
  have hrange : List.range 330 = List.range 328 ++ [328, 329] := by
    simp [List.range_succ (n := 329), List.range_succ (n := 328)]
  have hbody : ∀ i ∈ List.range 328, ((h.toList.getD (i / 8) 0).getLsbD (i % 8) && decide (i < 328)) =
      (h.toList.getD (i / 8) 0).getLsbD (i % 8) := fun i hi => by
    rw [decide_eq_true (List.mem_range.mp hi), Bool.and_true]
  rw [headerMessage, hrange, List.map_append, List.map_congr_left hbody]
  simp [headerBody]

theorem length_headerMessage (h : Vector Byte 41) : (headerMessage h).length = 330 := by simp [headerMessage]

/-- Bit `k` of byte `b` of a header is message bit `8 * b + k` (R191). -/
theorem getD_headerMessage (h : Vector Byte 41) {b k : Nat} (hb : b < 41) (hk : k < 8) :
    (headerMessage h).getD (8 * b + k) false = h[b].getLsbD k := by
  have hi : 8 * b + k < 330 := by omega
  have hbyte : (8 * b + k) / 8 = b := by omega
  have hbit : (8 * b + k) % 8 = k := by omega
  have hbody : 8 * b + k < 328 := by omega
  simp [headerMessage, hi, hbyte, hbit, hbody, hb]

/-- Packing the message of a header gives the header (R191). -/
theorem packHeader_headerMessage (h : Vector Byte 41) : packHeader (listBits (headerMessage h) 330) = h := by
  refine Vector.ext fun b hb => ?_
  rw [packHeader, getElem_tabulate]
  refine BitVec.eq_of_getLsbD_eq fun k hk => ?_
  rw [BitVec.getLsbD_extractLsb', decide_eq_true hk, Bool.true_and, listBits, getLsbD_ofBits_lt _ (by omega),
    getD_headerMessage h hb hk]

/-! ### Reception (R190 to R192) -/

/-- Within one channel bit of its encoding a header is decoded and packed exactly. -/
theorem packHeader_vitDecode (h : Vector Byte 41) {y : Block}
    (hd : pairDist (pairsOf y) (convEncode ⟨7, 5⟩ (headerMessage h)) ≤ 1) : packHeader (vitDecode ⟨7, 5⟩ y) = h := by
  have hlen := (length_pairsOf y).trans (length_headerMessage h).symm
  rw [headerMessage_eq] at hd hlen
  rw [vitDecode, viterbi_of_pairDist_le_one (headerBody h) hlen hd, ← headerMessage_eq, packHeader_headerMessage]

/-- The encoded header as a block, before interleaving and scrambling (R142). -/
def encodedHeader (c : Config) (h : Vector Byte 41) : Block := blockOfPairs (convEncode c.convCode (headerMessage h))

theorem pairsOf_encodedHeader (c : Config) (h : Vector Byte 41) :
    pairsOf (encodedHeader c h) = convEncode c.convCode (headerMessage h) :=
  pairsOf_blockOfPairs ((length_convEncodeFrom _ _ _).trans (length_headerMessage h))

/-- Descrambler and deinterleaver take the transmitter's scrambling and interleaving back (R126, R130). -/
theorem deinterleave_descramble_transmitBlock (c : Config) (h : Vector Byte 41) :
    deinterleave (descramble c.romScr (transmitBlock c h)) = encodedHeader c h := by
  rw [transmitBlock, descramble_descramble, deinterleave_interleave, encodedHeader]

/-- A transmitted block with at most one wrong bit reaches the decoder at most one channel bit from the encoding. -/
theorem pairDist_received_le {c : Config} {h : Vector Byte 41} {x : Block}
    (hx : x = transmitBlock c h ∨ ∃ j, j < 660 ∧ x = transmitBlock c h ^^^ BitVec.twoPow 660 j) :
    pairDist (pairsOf (deinterleave (descramble c.romScr x))) (convEncode c.convCode (headerMessage h)) ≤ 1 := by
  obtain rfl | ⟨j, hj, rfl⟩ := hx
  · rw [deinterleave_descramble_transmitBlock, pairsOf_encodedHeader, pairDist_self]
    exact Nat.zero_le 1
  · rw [descramble_xor, deinterleave_xor, deinterleave_descramble_transmitBlock, deinterleave_twoPow hj,
      pairsOf_xor_twoPow, pairsOf_encodedHeader]
    exact pairDist_flipChannelBit_le _ _

/-- The header of a transmitted block with at most one wrong bit, whatever the scramble table. -/
theorem headerOf_received {c : Config} {h : Vector Byte 41} {x : Block} (hc : c.convCode = ⟨7, 5⟩)
    (hx : x = transmitBlock c h ∨ ∃ j, j < 660 ∧ x = transmitBlock c h ^^^ BitVec.twoPow 660 j) : headerOf c x = h := by
  have hd := pairDist_received_le hx
  rw [hc] at hd
  rw [headerOf, hc, packHeader_vitDecode h hd]

/-- The bits of a history that holds a block as raw characters, inverted for code 19 (R190). -/
theorem headerBits_eq {s : State} {x : Block}
    (hx : ∀ i, i < 660 → decide (lookBack s (660 - i) = 3) = (x.getLsbD i ^^ decide (s.car.synctype = 19))) :
    headerBits s = x :=
  block_ext fun i hi => by
    rw [headerBits, getLsbD_ofBits_lt _ hi, hx i hi, Bool.xor_assoc, Bool.xor_self, Bool.xor_false]

/-- `DSTH.DECODE` answers under every lock code, with the header of the last 660 dibits (R190, R192, R193). -/
theorem exec_uopDsthDecode {s : State} (hs : Ready s) (hl : ftypeOk s.car.synctype) :
    exec .uopDsthDecode s = .next { s with
      hdr.header := headerOf s.cfg (headerBits s)
      events := s.events ++ [.dstarHeader (headerOf s.cfg (headerBits s))] } := by
  have hback : histBack s 660 = .ok (lookBack s 660) :=
    histBack_ok (by decide) (by have := configLegal_histCap hs.legal; omega)
  have hdecode : dsthDecode s = .ok (emit (.dstarHeader (headerOf s.cfg (headerBits s)))
      { s with hdr.header := headerOf s.cfg (headerBits s) }) := by
    rw [dsthDecode, if_neg (by simp [synctypeLegal_iff.mpr hl]), hback]
  exact runIn_next_iff.mpr ⟨hs, hdecode⟩

/-- Settles O55: the history's bits are the block, and the block's header is the one sent. -/
theorem transmittedHeaderIsReceived : Obligations.TransmittedHeaderIsReceived := by
  intro s h x hs hcode hsync hx hbits
  have hlock : ftypeOk s.car.synctype := by
    obtain hcar | hcar := hsync <;> exact hcar ▸ ftypeOk_of_lt (by decide)
  have hheader : headerOf s.cfg (headerBits s) = h := by rw [headerBits_eq hbits, headerOf_received hcode hx]
  rw [exec_uopDsthDecode hs hlock, hheader]

end Sys2Proof.Machine
end

section
/-! The statements of spec/44_viterbi.md: the decoder's metrics, decisions and traced path after each received pair, and
its exactness within one channel bit of an encoded message. -/

-- One declaration at a time, as in the tests, keeps the memory of the one-text compile small.
set_option Elab.async false

namespace Sys2Proof.Machine

/-! ### The default code corrects one error (R143) -/

theorem length_flipChannelBit (ps : List (Bool × Bool)) (j : Nat) : (flipChannelBit ps j).length = ps.length := by
  induction ps, j using flipChannelBit.induct with
  | case1 j => rfl
  | case2 a b ps => rfl
  | case3 a b ps => rfl
  | case4 p ps j ih => exact congrArg (· + 1) ih

theorem length_convEncode (c : ConvCode) (m : List Bool) : (convEncode c m).length = m.length :=
  length_convEncodeFrom c m 0

/-- Settles O41: the encoding and its one-bit inversions lie within one channel bit of the encoding; without the zeros,
by the rule's own example. -/
theorem viterbiCorrectsASingleError : Obligations.ViterbiCorrectsASingleError := by
  refine ⟨by decide, fun m => ⟨?_, fun j _ => ?_⟩⟩
  · exact viterbi_of_pairDist_le_one m (length_convEncode _ _) ((pairDist_self _).trans_le (Nat.zero_le 1))
  · exact viterbi_of_pairDist_le_one m ((length_flipChannelBit _ _).trans (length_convEncode _ _))
      (pairDist_flipChannelBit_le _ j)

/-! ### Trellis states as numbers (R135, R137) -/

theorem toNat_pred0 (s : Trellis) : (pred0 s).toNat = s.toNat / 2 := by
  rw [pred0, BitVec.toNat_ushiftRight, Nat.shiftRight_one]

theorem toNat_pred1 (s : Trellis) : (pred1 s).toNat = 2 + s.toNat / 2 := by
  revert s
  decide

/-- The numbers below 4 are the trellis states. -/
theorem exists_toNat_eq {q : Nat} (hq : q < 4) : ∃ s : Trellis, s.toNat = q := ⟨BitVec.ofNatLT q hq, rfl⟩

theorem bitDist_eq_toNat_xor (a e : Bool) : bitDist a e = (a ^^ e).toNat := by
  revert a e
  decide

theorem bitDist_le_one (a e : Bool) : bitDist a e ≤ 1 := by
  rw [bitDist_eq_toNat_xor]
  exact Bool.toNat_le _

theorem branchMetric_le_two (c : ConvCode) (p : Trellis) (u a b : Bool) : branchMetric c p u a b ≤ 2 :=
  Nat.add_le_add (bitDist_le_one a _) (bitDist_le_one b _)

/-! ### After each received pair (R136 to R141) -/

section
variable (c : ConvCode) (x : Block)

/-- The first `t` received pairs (R136). -/
def firstPairs (t : Nat) : List (Bool × Bool) :=
  (List.range t).map fun i => (x.getLsbD (2 * i), x.getLsbD (2 * i + 1))

/-- The path metrics after `t` pairs. -/
def metricsAfter (t : Nat) : Metrics := (received c (firstPairs x t)).1

/-- The decision of pair `t` for state `s` (R138). -/
def decisionAt (t : Nat) (s : Trellis) : Bool :=
  acsBit c (metricsAfter c x t) (x.getLsbD (2 * t)) (x.getLsbD (2 * t + 1)) s

/-- The state before pair `t` on the path kept into `s` (R139). -/
def cameFrom (t : Nat) (s : Trellis) : Trellis :=
  chosenPred c (metricsAfter c x t) (x.getLsbD (2 * t)) (x.getLsbD (2 * t + 1)) s

/-- The state the traceback is in when it has gone `k` pairs back from state 0 after pair 329 (R140). -/
def backState : Nat → Trellis
  | 0 => 0
  | k + 1 => cameFrom c x (329 - k) (backState k)

/-- The traceback's state after `t` pairs. -/
def tracedState (t : Nat) : Trellis := backState c x (330 - t)

theorem received_firstPairs_succ (t : Nat) :
    received c (firstPairs x (t + 1)) =
      (acsAll c (metricsAfter c x t) (x.getLsbD (2 * t)) (x.getLsbD (2 * t + 1)),
        decisions c (metricsAfter c x t) (x.getLsbD (2 * t)) (x.getLsbD (2 * t + 1)) ::
          (received c (firstPairs x t)).2) := by
  rw [firstPairs, List.range_succ, List.map_append]
  exact received_snoc c (firstPairs x t) _ _

theorem metricAt_metricsAfter_zero (s : Trellis) : metricAt (metricsAfter c x 0) s = 0 := by
  revert s
  exact (by decide : ∀ s, metricAt startMetrics s = 0)

/-- One pair's add-compare-select (R138). -/
theorem metricAt_metricsAfter_succ (t : Nat) (s : Trellis) :
    metricAt (metricsAfter c x (t + 1)) s =
      acsMetric c (metricsAfter c x t) (x.getLsbD (2 * t)) (x.getLsbD (2 * t + 1)) s := by
  rw [metricsAfter, received_firstPairs_succ, metricAt_acsAll]

/-- A pair adds at most 2 to a metric. -/
theorem metricAt_metricsAfter_le (t : Nat) (s : Trellis) : metricAt (metricsAfter c x t) s ≤ 2 * t := by
  induction t generalizing s with
  | zero => exact (metricAt_metricsAfter_zero c x s).le
  | succ t ih =>
    rw [metricAt_metricsAfter_succ]
    exact (acsMetric_le c _ _ _ s (.inl rfl)).trans (Nat.add_le_add (ih _) (branchMetric_le_two c _ _ _ _))

theorem tracedState_last : tracedState c x 330 = 0 := rfl

/-- The traced path follows the decisions backward (R140). -/
theorem tracedState_eq_cameFrom {t : Nat} (ht : t < 330) :
    tracedState c x t = cameFrom c x t (tracedState c x (t + 1)) := by
  obtain ⟨k, hk⟩ : ∃ k, 330 - t = k + 1 := ⟨329 - t, by omega⟩
  have hnext : 330 - (t + 1) = k := by omega
  have hpair : 329 - k = t := by omega
  rw [tracedState, tracedState, hk, hnext, backState, hpair]

theorem toNat_cameFrom (t : Nat) (s : Trellis) :
    (cameFrom c x t s).toNat = if decisionAt c x t s = true then 2 + s.toNat / 2 else s.toNat / 2 := by
  rw [cameFrom, chosenPred, ← toNat_pred1, ← toNat_pred0]
  exact apply_ite BitVec.toNat _ _ _

/-- The traceback over the first `n` pairs emits the inputs of the traced path, oldest first. -/
theorem tracebackFrom_tracedState {n : Nat} (hn : n ≤ 330) (out : List Bool) :
    tracebackFrom (received c (firstPairs x n)).2 (tracedState c x n) out =
      (List.range n).map (fun t => inputOf (tracedState c x (t + 1))) ++ out := by
  induction n generalizing out with
  | zero => rfl
  | succ n ih =>
    have hstep := tracedState_eq_cameFrom c x (t := n) hn
    rw [cameFrom, chosenPred] at hstep
    rw [received_firstPairs_succ, tracebackFrom, getLsbD_decisions, ← hstep, ih (by omega), List.range_succ,
      List.map_append, List.append_assoc]
    rfl

/-- The decoded bits are the inputs of the traced path (R140). -/
theorem getLsbD_vitDecode {t : Nat} (ht : t < 330) :
    (vitDecode c x).getLsbD t = inputOf (tracedState c x (t + 1)) := by
  have hbits : viterbi c (pairsOf x) = (List.range 330).map (fun t => inputOf (tracedState c x (t + 1))) :=
    (tracebackFrom_tracedState c x le_rfl []).trans (List.append_nil _)
  rw [vitDecode, listBits, getLsbD_ofBits_lt _ ht, hbits]
  simp [ht]

/-- State 0 is entered with input 0, from a state that is entered with input 0 (R135): the last two bits are 0. -/
theorem getLsbD_vitDecode_tail : (vitDecode c x).getLsbD 328 = false ∧ (vitDecode c x).getLsbD 329 = false := by
  have hbefore : tracedState c x 329 = pred0 0 ∨ tracedState c x 329 = pred1 0 := by
    rw [tracedState_eq_cameFrom c x (by decide), tracedState_last]
    exact chosenPred_mem c _ _ _ 0
  rw [getLsbD_vitDecode c x (by decide), getLsbD_vitDecode c x (by decide), tracedState_last]
  refine ⟨?_, rfl⟩
  obtain h | h := hbefore <;> rw [h] <;> rfl

end

/-- Settles O40: the metrics and decisions after each pair are the model's, and the path is the one traced back. -/
theorem decodedTailIsZero : Obligations.DecodedTailIsZero := by
  intro s x hs
  obtain ⟨h328, h329⟩ := getLsbD_vitDecode_tail s.cfg.convCode x
  refine ⟨vitDecode s.cfg.convCode x, runIn_ok hs _, h328, h329,
    fun t q => metricAt (metricsAfter s.cfg.convCode x t) (BitVec.ofNat 2 q),
    fun q t => decisionAt s.cfg.convCode x t (BitVec.ofNat 2 q),
    fun t => (tracedState s.cfg.convCode x t).toNat,
    fun q _ => metricAt_metricsAfter_zero _ x _, fun t q _ hq => ?acs, fun t q _ _ => metricAt_metricsAfter_le _ x t _,
    rfl, fun t ht => ⟨?came, getLsbD_vitDecode _ x ht⟩⟩
  case acs =>
    obtain ⟨p, rfl⟩ := exists_toNat_eq hq
    simp only [← toNat_pred1]
    simp only [← toNat_pred0, BitVec.ofNat_toNat, BitVec.setWidth_eq, metricAt_metricsAfter_succ,
      ← bitDist_eq_toNat_xor]
    exact ⟨rfl, rfl⟩
  case came =>
    simp only [BitVec.ofNat_toNat, BitVec.setWidth_eq]
    rw [tracedState_eq_cameFrom _ x ht, toNat_cameFrom]

end Sys2Proof.Machine
end

section
/-! The statements of spec/45_dmr_slot.md: the interleave tables and `scatter`, the slot rows and the sync field, the replay
of the entries, and the steps of the two DMR states. -/

-- One declaration at a time, as in the tests, keeps the memory of the one-text compile small.
set_option Elab.async false

namespace Sys2Proof.Machine

/-! ### The AMBE interleave tables and `scatter` (R48, R157) -/

/-- The check of a table's positions: they are pairwise distinct and none was met before. -/
theorem nodup_of_distinctFrom {l : List Nat} {seen : Nat} (h : distinctFrom seen l = true) :
    l.Nodup ∧ ∀ a ∈ l, seen.testBit a = false := by
  induction l generalizing seen with
  | nil => exact ⟨List.nodup_nil, nofun⟩
  | cons a l ih =>
    simp only [distinctFrom, Bool.and_eq_true, Bool.not_eq_true'] at h
    obtain ⟨ha, hrest⟩ := h
    obtain ⟨hnodup, hunseen⟩ := ih hrest
    simp only [Nat.testBit_or, Nat.testBit_two_pow, Bool.or_eq_false_iff, decide_eq_false_iff_not] at hunseen
    refine ⟨List.nodup_cons.mpr ⟨fun hmem => (hunseen a hmem).2 rfl, hnodup⟩, ?_⟩
    exact List.forall_mem_cons.mpr ⟨ha, fun b hb => (hunseen b hb).1⟩

/-- What the legality check says of the AMBE tables (R48). -/
theorem configLegal_ambeTables {c : Config} (h : configLegal c = true) :
    tableShape 36 c.romRw c.romRx = true ∧ tableShape 36 c.romRy c.romRz = true ∧
      (frameTargets c.romRw c.romRx ++ frameTargets c.romRy c.romRz).Nodup := by
  simp only [configLegal, Bool.and_eq_true] at h
  exact ⟨by tauto, by tauto, (nodup_of_distinctFrom (by tauto)).1⟩

theorem romAt_eq_getElem! (t : List Nat) (i : Nat) : romAt t i = t[i]! := by
  rw [romAt, List.getD_eq_getElem?_getD, getElem!_def]
  cases t[i]? <;> rfl

/-- The entries of a legal table, and the frame positions they address (R48, R70). -/
theorem tableShape_entry {n i : Nat} {ws xs : List Nat} (h : tableShape n ws xs = true) (hi : i < n) :
    ws[i]! < 4 ∧ xs[i]! < 24 ∧ (frameTargets ws xs)[i]? = some (24 * ws[i]! + xs[i]!) := by
  simp only [tableShape, Bool.and_eq_true, beq_iff_eq, List.all_eq_true, decide_eq_true_eq] at h
  obtain ⟨⟨⟨hws, hxs⟩, hrow⟩, hcol⟩ := h
  have hw : i < ws.length := by omega
  have hx : i < xs.length := by omega
  rw [getElem!_pos ws i hw, getElem!_pos xs i hx]
  refine ⟨hrow _ (List.getElem_mem hw), hcol _ (List.getElem_mem hx), ?_⟩
  simp [frameTargets, hw, hx]

/-- In a list without repetition two entries are equal only at one place. -/
theorem ne_of_nodup_of_getElem? {l : List Nat} (h : l.Nodup) {i j a b : Nat} (hij : i ≠ j) (ha : l[i]? = some a)
    (hb : l[j]? = some b) : a ≠ b := by
  rintro rfl
  obtain ⟨hi, rfl⟩ := List.getElem?_eq_some_iff.mp ha
  obtain ⟨hj, hji⟩ := List.getElem?_eq_some_iff.mp hb
  exact hij ((h.getElem_inj_iff).mp hji.symm)

/-- The bits of a frame after `scatter`, for target positions that are inside it and distinct (R157). -/
theorem getLsbD_scatter {c : Config} (fr : Frame) {i : Nat} (d : Dibit) {hi lo : Nat}
    (hhi : hi = 24 * romAt c.romRw i + romAt c.romRx i) (hlo : lo = 24 * romAt c.romRy i + romAt c.romRz i)
    (hi96 : hi < 96) (lo96 : lo < 96) (hne : hi ≠ lo) :
    (scatter c fr i d).getLsbD hi = d.getLsbD 1 ∧ (scatter c fr i d).getLsbD lo = d.getLsbD 0 ∧
      ∀ n, n ≠ hi → n ≠ lo → (scatter c fr i d).getLsbD n = fr.getLsbD n := by
  simp only [scatter, frameSet, ← hhi, ← hlo, getLsbD_setBit]
  refine ⟨?_, ?_, fun n hnhi hnlo => ?_⟩
  · simp [hne, hi96, dibitHi]
  · simp [lo96, dibitLo]
  · rw [if_neg hnlo, if_neg hnhi]

/-- Settles O43: the places of one table and of the two together are distinct because the check of the configuration says
so of the list of all 72. -/
theorem scatterWritesItsTwoBits : Obligations.ScatterWritesItsTwoBits := by
  refine ⟨⟨rfl, rfl, rfl, rfl⟩, fun c fr i d hc hi => ?_⟩
  obtain ⟨hshapeHi, hshapeLo, hnodup⟩ := configLegal_ambeTables hc
  obtain ⟨hnodupHi, hnodupLo, hdisjoint⟩ := List.nodup_append.mp hnodup
  obtain ⟨hrw, hrx, hposHi⟩ := tableShape_entry hshapeHi hi
  obtain ⟨hry, hrz, hposLo⟩ := tableShape_entry hshapeLo hi
  have hcross : ∀ n, n < 36 → 24 * c.romRw[i]! + c.romRx[i]! ≠ 24 * c.romRy[n]! + c.romRz[n]! := fun n hn =>
    hdisjoint _ (List.mem_of_getElem? hposHi) _ (List.mem_of_getElem? (tableShape_entry hshapeLo hn).2.2)
  refine ⟨⟨hrw, hrx, hry, hrz⟩, fun n hn => ⟨hcross n hn, fun hni => ⟨?_, ?_⟩⟩, ?_⟩
  · exact ne_of_nodup_of_getElem? hnodupHi hni.symm hposHi (tableShape_entry hshapeHi hn).2.2
  · exact ne_of_nodup_of_getElem? hnodupLo hni.symm hposLo (tableShape_entry hshapeLo hn).2.2
  · have hhi96 : 24 * c.romRw[i]! + c.romRx[i]! < 96 := by omega
    have hlo96 : 24 * c.romRy[i]! + c.romRz[i]! < 96 := by omega
    exact getLsbD_scatter fr d (by simp only [romAt_eq_getElem!]) (by simp only [romAt_eq_getElem!]) hhi96 hlo96
      (hcross i hi)

/-! ### The slot rows (R154 to R170) -/

/-- The slot operation of a row is performed where its offset is inside the slot and, for the rows that hand frames off,
`synctype` is a code of R61. -/
theorem exec_slotRow {s : State} (hs : Ready s) {sub : Nat} {d : Dibit} {k : BitVec 6}
    (hk : (slotRow sub d k).wf = true) (hl : sub = 5 ∨ sub = 6 → ftypeOk s.car.synctype) :
    exec (slotRow sub d k) s = .next (slotOperation sub d k.toNat s) := by
  have inside {size : Nat} (hsize : offsetOk size k = true) (t : State) : onOffset size k t = .ok t := if_pos hsize
  have handOff {last : Nat} (h : ftypeOk s.car.synctype) (r : Except Refusal State) : onHandOff last k s r = r :=
    if_neg fun hn => by simp [synctypeLegal_iff.mpr h] at hn
  unfold slotRow at hk ⊢
  split at hk
  case h_1 | h_9 | h_11 => exact runIn_ok hs _
  case h_2 | h_3 | h_4 | h_5 | h_8 | h_10 => exact (congrArg (runIn s) (inside hk _)).trans (runIn_ok hs _)
  case h_6 | h_7 =>
    exact (congrArg (runIn s) ((handOff (hl (by decide)) _).trans (inside hk _))).trans (runIn_ok hs _)
  case h_12 =>
    have hop : slotOperation sub d k.toNat s = s := by simp only [slotOperation, slotTail]
    exact (runIn_ok hs _).trans (congrArg _ hop.symm)

/-- `DMRV.SLOT1` register by register (R155). -/
theorem slot1_registers (d : Dibit) (k : Nat) (s : State) : slot1 d k s = { s with
    dmr.cach := s.dmr.cach.setIfInBounds k d
    dmr.currentslot := if k = s.cfg.cachSlotDibit then slotBit s.cfg d else s.dmr.currentslot } := by
  simp only [slot1]
  split <;> rfl

/-- Settles O42: each row performs its slot operation. -/
theorem cachAndFillerSlots : Obligations.CachAndFillerSlots := by
  refine ⟨rfl, rfl, fun s d k hs => ?_⟩
  have slot {sub : Nat} (hk : (slotRow sub d k).wf = true) (hsub : sub ≠ 5 ∧ sub ≠ 6) :
      exec (slotRow sub d k) s = .next (slotOperation sub d k.toNat s) := exec_slotRow hs hk (by omega)
  refine ⟨slot (sub := 0) rfl (by decide), slot (sub := 8) rfl (by decide), fun hk => ⟨?slot1, ?slot7⟩,
    slot (sub := 10) rfl (by decide), slot (sub := 11) rfl (by decide)⟩
  case slot1 =>
    exact (slot (sub := 1) (decide_eq_true hk) (by decide)).trans (congrArg _ (slot1_registers d _ s))
  case slot7 => exact slot (sub := 7) (decide_eq_true hk) (by decide)

/-- Inside its slot `DMRV.SLOT3` scatters its dibit (R159). -/
theorem slot3_of_lt {k : Nat} (h : k < 18) (d : Dibit) (s : State) :
    slot3 d k s = { s with dmr.fr2 := scatter s.cfg (if k = 0 then 0 else s.dmr.fr2) k d } := by
  simp only [slot3, if_pos h]

/-- Beyond its slot `DMRV.SLOT3` scatters the free dibit. -/
theorem slot3_of_le {k : Nat} (h : 18 ≤ k) (d : Dibit) (s : State) :
    slot3 d k s = { s with dmr.fr2 := scatter s.cfg s.dmr.fr2 k (Config.pairPastSlot d k s.dmr.fr2) } := by
  simp only [slot3, if_neg (Nat.not_lt.mpr h)]

/-- Settles O44: each row performs its slot operation, which hands off at the last offset of an unmuted slot. -/
theorem ambeSlotsScatterAndHandOff : Obligations.AmbeSlotsScatterAndHandOff := by
  intro s d k hs hl
  have slot {sub : Nat} (hk : (slotRow sub d k).wf = true) :
      exec (slotRow sub d k) s = .next (slotOperation sub d k.toNat s) := exec_slotRow hs hk fun _ => hl
  refine ⟨fun hk => slot (sub := 2) (decide_eq_true hk), fun hk => ⟨?slot3, ?slot5⟩, fun h18 hk => ?past, fun hk => ?slot6⟩
  case slot3 =>
    exact (slot (sub := 3) (decide_eq_true (by omega))).trans (congrArg _ (slot3_of_lt hk d s))
  case past =>
    exact (slot (sub := 3) (decide_eq_true hk)).trans (congrArg _ (slot3_of_le h18 d s))
  case slot5 =>
    refine (slot (sub := 5) (decide_eq_true hk)).trans (congrArg _ ?_)
    simp only [slotOperation, slot5, emit]
    split <;> simp
  case slot6 =>
    refine (slot (sub := 6) (decide_eq_true hk)).trans (congrArg _ ?_)
    simp only [slotOperation, slot6, emit]
    split <;> simp

/-! ### The sync field (R160, R164, R165) -/

/-- The mute flag and the light after `sync_eval` (R165). -/
theorem syncLight_registers (f : List Dibit) (s : State) :
    syncLight f s = { s with
      dmr.mute :=
        if f = s.cfg.bsData ∨ f = s.cfg.msData then true
        else if f = s.cfg.bsVoice ∨ f = s.cfg.msVoice then false
        else s.dmr.mute
      dmr.slotlight :=
        if f = s.cfg.bsData ∨ f = s.cfg.msData then s.dmr.slotlight.setIfInBounds s.dmr.currentslot.toNat lightData
        else if f = s.cfg.bsVoice ∨ f = s.cfg.msVoice then
          s.dmr.slotlight.setIfInBounds s.dmr.currentslot.toNat lightVoice
        else s.dmr.slotlight } := by
  unfold syncLight
  split
  · rfl
  · split <;> rfl

/-- The mode after `sync_eval` (R165). -/
theorem syncMode_registers (f : List Dibit) (s : State) :
    syncMode f s = { s with
      dmr.msMode :=
        if f = s.cfg.msData ∨ f = s.cfg.msVoice then true
        else if f = s.cfg.bsData ∨ f = s.cfg.bsVoice then false
        else s.dmr.msMode } := by
  unfold syncMode
  split
  · rfl
  · split <;> rfl

/-- `DMRV.SLOT4` before the last offset writes its character only (R160). -/
theorem slot4_of_ne {k : Nat} (h : k ≠ 23) (d : Dibit) (s : State) :
    slot4 d k s = { s with dmr.syncf := s.dmr.syncf.setIfInBounds k (syncChar d) } := if_neg h

/-- `DMRV.SLOT4` at the last offset evaluates the field with its character (R160). -/
theorem slot4_last (d : Dibit) (s : State) :
    slot4 d 23 s = syncEval { s with dmr.syncf := s.dmr.syncf.setIfInBounds 23 (syncChar d) } := rfl

/-- Settles O45: the character is written, and the complete field is evaluated. -/
theorem syncFieldDecidesMuteLightAndMode : Obligations.SyncFieldDecidesMuteLightAndMode := by
  intro s d k hs hk
  have slot {sub : Nat} (hwf : (slotRow sub d k).wf = true) (hsub : sub ≠ 5 ∧ sub ≠ 6) :
      exec (slotRow sub d k) s = .next (slotOperation sub d k.toNat s) := exec_slotRow hs hwf (by omega)
  refine ⟨slot (sub := 9) (decide_eq_true hk) (by decide), fun hlast => ?inside, fun hlast => ?complete⟩
  all_goals refine (slot (sub := 4) (decide_eq_true hk) (by decide)).trans (congrArg _ ?_)
  case inside => exact slot4_of_ne hlast d s
  case complete =>
    simp only [decide_eq_true_eq]
    rw [hlast]
    refine (slot4_last d s).trans ?_
    rw [syncEval_eq, syncMode_registers, syncLight_registers]
    rfl

/-! ### Positions and their slot rows (R67, R151) -/

/-- The offset of a position is inside its slot (R67). -/
theorem slotOffsetOf_lt {p : Nat} (hp : p < 288) : slotOffsetOf p < slotSizes.getD (slotIndex p) 0 := by
  rw [slotOffsetOf, slotIndex_eq]
  split_ifs <;> simp [slotStart, slotCum, slotSizes] <;> omega

/-- The position at an offset of a slot (R67). -/
theorem slotIndex_slotStart_add : ∀ n < 10, ∀ k < slotSizes.getD n 0,
    slotStart n + k < 288 ∧ slotIndex (slotStart n + k) = n := by decide

/-- The row of a slot is well formed with an offset inside the slot. -/
theorem slotRow_wf {n : Nat} (hn : n < 10) {k : BitVec 6} (hk : k.toNat < slotSizes.getD n 0) (d : Dibit) :
    (slotRow n d k).wf = true := by
  match n, hn with
  | 0, _ | 8, _ => rfl
  | 3, _ => exact decide_eq_true (hk.trans (by decide))
  | 1, _ | 2, _ | 4, _ | 5, _ | 6, _ | 7, _ | 9, _ => exact decide_eq_true hk

/-- In a decoded block the position at an offset of a slot runs the slot's operation with that offset (R151). -/
theorem process_slot {n k : Nat} (hn : n < 10) (hk : k < slotSizes.getD n 0) {s : State}
    (hb : 0 < s.cfg.dmrVoiceBlocks) (d : Dibit) : process (slotStart n + k) d s = slotOperation n d k s := by
  obtain ⟨hpos, hslot⟩ := slotIndex_slotStart_add n hn k hk
  have hframe : posInFrame (slotStart n + k) = slotStart n + k := Nat.mod_eq_of_lt hpos
  have hblock : majorBlock (slotStart n + k) = 0 := Nat.div_eq_of_lt hpos
  rw [process, dmrSub, hframe, hblock, if_neg (Nat.not_le.mpr hb), slotOffsetOf, hslot, Nat.add_sub_cancel_left]

/-- Past the decoded blocks no position writes anything (R170). -/
theorem process_tail {idx : Nat} {s : State} (hb : s.cfg.dmrVoiceBlocks ≤ majorBlock idx) (d : Dibit) :
    process idx d s = s := by
  rw [process, dmrSub, if_pos hb]
  rfl

/-! ### The replay of the dibits before the lock (R152) -/

theorem replay_append (x : Dibit) (ps qs : List Nat) (s : State) :
    replay x (ps ++ qs) s = replay x qs (replay x ps s) := by
  induction ps generalizing s with
  | nil => rfl
  | cons p ps ih => exact ih _

/-- No slot operation writes the history or the configuration, so none changes a look-back. -/
theorem slotOperation_lookBack (sub : Nat) (d : Dibit) (k : Nat) (s : State) :
    (slotOperation sub d k s).cfg = s.cfg ∧ lookBack (slotOperation sub d k s) = lookBack s := by
  obtain ⟨dmr, events, h, -, -⟩ := slotOperation_frame sub d k s
  rw [h]
  exact ⟨rfl, rfl⟩

/-- The replay of positions of one slot: its operation on the dibits heard, `h j` being the one `j` symbols back and `top`
the depth of the slot's first position. -/
theorem replay_slot {x : Dibit} {n : Nat} (hn : n < 10) {h : Nat → Dibit} {top : Nat} (htop : slotStart n + top = 144)
    {ks : List Nat} (hks : ∀ k ∈ ks, k < slotSizes.getD n 0) {s : State} (hb : 0 < s.cfg.dmrVoiceBlocks)
    (hh : ∀ j, lookBack s j ^^^ x = h j) :
    replay x (ks.map (slotStart n + ·)) s = ks.foldl (fun t k => slotOperation n (h (top - k)) k t) s := by
  induction ks generalizing s with
  | nil => rfl
  | cons k ks ih =>
    obtain ⟨hk, hks⟩ := List.forall_mem_cons.mp hks
    obtain ⟨hcfg, hback⟩ := slotOperation_lookBack n (h (top - k)) k s
    have hdepth : 144 - (slotStart n + k) = top - k := by omega
    rw [List.map_cons, replay, hdepth, hh, process_slot hn hk hb]
    exact ih hks (hcfg ▸ hb) (hback ▸ hh)

/-- The replay of all positions of a slot of `size` symbols. -/
theorem replay_wholeSlot {x : Dibit} {h : Nat → Dibit} (n size top : Nat)
    (hslot : n < 10 ∧ slotSizes.getD n 0 = size ∧ slotStart n + top = 144) {s : State} (hb : 0 < s.cfg.dmrVoiceBlocks)
    (hh : ∀ j, lookBack s j ^^^ x = h j) :
    replay x ((List.range size).map (slotStart n + ·)) s =
      (List.range size).foldl (fun t k => slotOperation n (h (top - k)) k t) s := by
  obtain ⟨hn, rfl, htop⟩ := hslot
  exact replay_slot hn htop (fun _ => List.mem_range.mp) hb hh

/-- With no block to decode the replay writes nothing. -/
theorem replay_tail (x : Dibit) (ps : List Nat) {s : State} (hb : s.cfg.dmrVoiceBlocks = 0) : replay x ps s = s := by
  induction ps with
  | nil => rfl
  | cons p ps ih => rw [replay, process_tail (hb ▸ Nat.zero_le _), ih]

/-- Writing the entries of a vector one after the other, up to entry `n`. -/
theorem getElem_foldl_setIfInBounds {α : Type} {m : Nat} (f : Nat → α) (v : Vector α m) (n : Nat) {i : Nat}
    (hi : i < m) : ((List.range n).foldl (fun v k => v.setIfInBounds k (f k)) v)[i] = if i < n then f i else v[i] := by
  induction n with
  | zero => rfl
  | succ n ih =>
    rw [List.range_succ, List.foldl_append, List.foldl_cons, List.foldl_nil, Vector.getElem_setIfInBounds hi, ih]
    grind

/-- Writing every entry of a vector one after the other gives the vector of the values written. -/
theorem foldl_setIfInBounds {α : Type} {m : Nat} (f : Nat → α) (v : Vector α m) :
    (List.range m).foldl (fun v k => v.setIfInBounds k (f k)) v = tabulate m f :=
  Vector.ext fun i hi => by rw [getElem_foldl_setIfInBounds f v m hi, if_pos hi, getElem_tabulate]

/-- `DMRV.SLOT1` on the offsets below `n` (R155). -/
theorem foldl_slot1 (f : Nat → Dibit) (s : State) (n : Nat) :
    (List.range n).foldl (fun t k => slot1 (f k) k t) s = { s with
      dmr.cach := (List.range n).foldl (fun v k => v.setIfInBounds k (f k)) s.dmr.cach
      dmr.currentslot :=
        if s.cfg.cachSlotDibit < n then slotBit s.cfg (f s.cfg.cachSlotDibit) else s.dmr.currentslot } := by
  induction n with
  | zero => rfl
  | succ n ih =>
    rw [List.range_succ, List.foldl_append, List.foldl_append, ih, List.foldl_cons, List.foldl_nil, slot1_registers]
    dsimp only [List.foldl_cons, List.foldl_nil]
    obtain hlt | rfl | hgt := Nat.lt_trichotomy s.cfg.cachSlotDibit n
    · rw [if_neg hlt.ne', if_pos hlt, if_pos (by omega)]
    · rw [if_pos rfl, if_pos (by omega)]
    · rw [if_neg hgt.ne, if_neg (by omega), if_neg (by omega)]

/-- A frame cleared at the first pair holds nothing of what it held before (R158, R159). -/
theorem foldl_scatter_clearing (c : Config) (f : Nat → Dibit) (fr : Frame) (n : Nat) :
    (List.range (n + 1)).foldl (fun g k => scatter c (if k = 0 then 0 else g) k (f k)) fr =
      (List.range (n + 1)).foldl (fun g k => scatter c g k (f k)) 0 := by
  induction n with
  | zero => rfl
  | succ n ih =>
    rw [List.range_succ, List.foldl_append, List.foldl_append, ih]
    rfl

/-- Operations that each write one part of a state write, one after the other, what the part then becomes. -/
theorem foldl_write {α : Type} {op : State → Nat → State} (write : α → State) (next : α → Nat → α) {ks : List Nat}
    (h : ∀ v, ∀ k ∈ ks, op (write v) k = write (next v k)) (v : α) :
    ks.foldl op (write v) = write (ks.foldl next v) := by
  induction ks generalizing v with
  | nil => rfl
  | cons k ks ih =>
    rw [List.foldl_cons, List.foldl_cons, h v k List.mem_cons_self]
    exact ih (fun v j hj => h v j (List.mem_cons_of_mem k hj)) (next v k)

/-- `DMRV.SLOT2` on its first offsets (R158). -/
theorem foldl_slot2 (f : Nat → Dibit) (s : State) (n : Nat) :
    (List.range (n + 1)).foldl (fun t k => slot2 (f k) k t) s =
      { s with dmr.fr1 := (List.range (n + 1)).foldl (fun g k => scatter s.cfg g k (f k)) 0 } := by
  rw [← foldl_scatter_clearing s.cfg f s.dmr.fr1 n]
  exact foldl_write (fun g => { s with dmr.fr1 := g }) _ (fun _ _ _ => rfl) s.dmr.fr1

/-- `DMRV.SLOT3` on its first offsets (R159). -/
theorem foldl_slot3 (f : Nat → Dibit) (s : State) {n : Nat} (hn : n < 18) :
    (List.range (n + 1)).foldl (fun t k => slot3 (f k) k t) s =
      { s with dmr.fr2 := (List.range (n + 1)).foldl (fun g k => scatter s.cfg g k (f k)) 0 } := by
  rw [← foldl_scatter_clearing s.cfg f s.dmr.fr2 n]
  refine foldl_write (fun g => { s with dmr.fr2 := g }) _ (fun _ k hk => slot3_of_lt ?_ _ _) s.dmr.fr2
  have := List.mem_range.mp hk
  omega

/-- `DMRV.SLOT4` on the offsets before the last (R160). -/
theorem foldl_slot4_of_le (f : Nat → Dibit) (s : State) {n : Nat} (hn : n ≤ 23) :
    (List.range n).foldl (fun t k => slot4 (f k) k t) s = { s with
      dmr.syncf := (List.range n).foldl (fun v k => v.setIfInBounds k (syncChar (f k))) s.dmr.syncf } := by
  refine foldl_write (fun v => { s with dmr.syncf := v }) _ (fun _ k hk => slot4_of_ne ?_ _ _) s.dmr.syncf
  have := List.mem_range.mp hk
  omega

/-- `DMRV.SLOT4` on all its offsets (R160): the evaluation sees the complete field. -/
theorem foldl_slot4 (f : Nat → Dibit) (s : State) :
    (List.range 24).foldl (fun t k => slot4 (f k) k t) s =
      syncEval { s with dmr.syncf := tabulate 24 fun k => syncChar (f k) } := by
  rw [← foldl_setIfInBounds _ s.dmr.syncf, List.range_succ, List.foldl_append, List.foldl_append,
    foldl_slot4_of_le f s le_rfl, List.foldl_cons, List.foldl_nil, slot4_last, List.foldl_cons, List.foldl_nil]

/-- The positions the replay covers, slot by slot (R152). -/
theorem replayed_positions :
    List.range' 54 90 = (List.range 12).map (slotStart 1 + ·) ++ ((List.range 36).map (slotStart 2 + ·) ++
      ((List.range 18).map (slotStart 3 + ·) ++ (List.range 24).map (slotStart 4 + ·))) := by decide

/-- The whole replay, `h n` being the dibit heard `n` symbols before the end of the sync field (R152). -/
theorem replay_eq {x : Dibit} {h : Nat → Dibit} {s : State} (hb : 0 < s.cfg.dmrVoiceBlocks)
    (hc : s.cfg.cachSlotDibit < 12) (hh : ∀ n, lookBack s n ^^^ x = h n) :
    replay x (List.range' 54 90) s = syncEval { s with
      dmr.cach := tabulate 12 fun k => h (90 - k)
      dmr.currentslot := slotBit s.cfg (h (90 - s.cfg.cachSlotDibit))
      dmr.fr1 := (List.range 36).foldl (fun f k => scatter s.cfg f k (h (78 - k))) 0
      dmr.fr2 := (List.range 18).foldl (fun f k => scatter s.cfg f k (h (42 - k))) 0
      dmr.syncf := tabulate 24 fun k => syncChar (h (24 - k)) } := by
  have cach := (replay_wholeSlot 1 12 90 (by decide) hb hh).trans (foldl_slot1 (fun k => h (90 - k)) s 12)
  rw [foldl_setIfInBounds, if_pos hc] at cach
  rw [replayed_positions, replay_append, replay_append, replay_append, cach,
    (replay_wholeSlot 2 36 78 (by decide) ?_ ?_).trans (foldl_slot2 (fun k => h (78 - k)) _ 35),
    (replay_wholeSlot 3 18 42 (by decide) ?_ ?_).trans (foldl_slot3 (fun k => h (42 - k)) _ (n := 17) (by decide)),
    (replay_wholeSlot 4 24 24 (by decide) ?_ ?_).trans (foldl_slot4 (fun k => h (24 - k)) _)]
  exacts [hb, hh, hb, hh, hb, hh]

/-! ### The entries (R152, R166) -/

/-- `DMRV.ENTER` where it runs: the replay from position 54 on, then the position preset (R152). -/
theorem dmrvEnter_eq {s : State} (hs : Ready s) (hl : ftypeOk s.car.synctype) :
    dmrvEnter s = .ok { replay (if s.car.synctype = 11 then 2 else 0) (List.range' 54 90)
      { s with fsm := processingDmrVoice } with dmr.symbolIndex := 144 } := by
  rw [dmrvEnter, if_neg (by simp [synctypeLegal_iff.mpr hl]), histBack_entry hs]

/-- The CACH dibit of the slot number is one of the twelve (R155). -/
theorem configLegal_cachSlot {c : Config} (h : configLegal c = true) : c.cachSlotDibit < 12 ∧ c.cachSlotBit < 2 := by
  simp only [configLegal, Bool.and_eq_true, decide_eq_true_eq] at h
  tauto

/-- Settles O46: the replay of slots 1 to 4 in a decoded block 0, and of tail positions without one. -/
theorem voiceEntryReplaysTheHistory : Obligations.VoiceEntryReplaysTheHistory := by
  intro s hs hl h u
  let entered : State := { s with fsm := processingDmrVoice }
  refine ⟨fun hb => ?replayed, fun hb => ?tail⟩
  all_goals refine runIn_next_iff.mpr ⟨hs, (dmrvEnter_eq hs hl).trans ?_⟩
  case replayed =>
    rw [replay_eq (s := entered) (h := h) hb (configLegal_cachSlot hs.legal).1 fun _ => rfl]
    rfl
  case tail => rw [replay_tail (s := entered) _ _ hb]

/-- The events and the fields a data lock reports are not the verdict's (R165, R166). -/
theorem syncEval_keeps (s : State) :
    (syncEval s).events = s.events ∧ (syncEval s).dmr.currentslot = s.dmr.currentslot ∧
      (syncEval s).dmr.slottype = s.dmr.slottype ∧ (syncEval s).dmr.bursttype = s.dmr.bursttype := by
  obtain ⟨mute, msMode, light, h, -⟩ := syncEval_frame s
  rw [h]
  exact ⟨rfl, rfl, rfl, rfl⟩

/-- Settles O48: the fields are read, and the event reports them although the sync field is evaluated in between. -/
theorem dataEntryReadsTheFields : Obligations.DataEntryReadsTheFields := by
  intro s hs hl h u
  refine runIn_next_iff.mpr ⟨hs, ?_⟩
  obtain ⟨hevents, hslot, htype, hburst⟩ : u.events = s.events ∧ u.dmr.currentslot = _ ∧ u.dmr.slottype = _ ∧
    u.dmr.bursttype = _ := syncEval_keeps _
  rw [dmrdEnter, if_neg (by simp [synctypeLegal_iff.mpr hl]), histBack_entry hs]
  change Except.ok { emit (.dmrData u.dmr.currentslot u.dmr.slottype u.dmr.bursttype) u with dmr.dcount := 0 } = _
  rw [emit, hevents, hslot, htype, hburst]

/-! ### The steps (R153, R163, R168) -/

/-- A push into the history leaves the block where operations run: the pointer stays inside the ring (R42). -/
theorem Ready.histPush {s : State} (hs : Ready s) (d : Dibit) : Ready (histPush d s) := by
  obtain ⟨hlegal, hcfg, hfsm, hmod, hwindow, hlight, hlidx, hwp⟩ := (ready_iff s).mp hs
  exact (ready_iff _).mpr ⟨hlegal, hcfg, hfsm, hmod, hwindow, hlight, hlidx, Nat.mod_lt _ (Nat.zero_lt_of_lt hwp)⟩

/-- Under a lock code `DBT.NEXT` pushes the raw value of the symbol's slice and gives the logical one (R116). -/
theorem dbtNext_locked {s : State} (h0 : 0 ≤ s.car.synctype.toInt) (h19 : s.car.synctype.toInt ≤ 19) :
    dbtNext s = .ok (histPush (slice s.car.synctype s.car s.str.symbol).raw s,
      (slice s.car.synctype s.car s.str.symbol).ret) :=
  dbtNext_ok_iff.mpr ⟨fun he => absurd (he ▸ h0) (by decide), synctypeLegal_iff.mpr ⟨by omega, h19⟩, rfl, rfl⟩

/-- The row of a position, decoded or of the tail, performs what `process` does there (R58, R151). -/
theorem exec_slotRow_position {s : State} (hs : Ready s) (hl : ftypeOk s.car.synctype) (idx : Nat) (d : Dibit) :
    exec (slotRow (dmrSub s.cfg idx) d (BitVec.ofNat 6 (slotOffsetOf (posInFrame idx)))) s =
      .next (process idx d s) := by
  have hpos : posInFrame idx < 288 := Nat.mod_lt _ (by decide)
  have hoff := slotOffsetOf_lt hpos
  by_cases hb : s.cfg.dmrVoiceBlocks ≤ majorBlock idx
  · have hsub : dmrSub s.cfg idx = 11 := if_pos hb
    rw [hsub, process_tail hb]
    exact exec_slotRow hs (sub := 11) rfl fun _ => hl
  · have hsub : dmrSub s.cfg idx = slotIndex (posInFrame idx) := if_neg hb
    have hslot : slotIndex (posInFrame idx) < 10 := by
      rw [slotIndex_eq]
      grind
    have hk : (BitVec.ofNat 6 (slotOffsetOf (posInFrame idx))).toNat = slotOffsetOf (posInFrame idx) := by
      have hsize : ∀ n < 10, slotSizes.getD n 0 < 2 ^ 6 := by decide
      exact Nat.mod_eq_of_lt (hoff.trans (hsize _ hslot))
    rw [exec_slotRow hs (hsub ▸ slotRow_wf hslot (hk.symm ▸ hoff) d) fun _ => hl, hk]
    rfl

/-- What `DMRV.STEP` answers after `DBT.NEXT`: the position is the one counted before the slot row (R153, R163). -/
theorem dmrvStep_of_dbtNext {s u : State} {d : Dibit} (h : dbtNext s = .ok (u, d)) :
    dmrvStep s =
      (let m : State := { process u.dmr.symbolIndex.toNat d u with
        dmr.symbolIndex := countUp .symbolIndex u.dmr.symbolIndex }
       .ok (if u.cfg.dmrVoiceEnd ≤ (countUp .symbolIndex u.dmr.symbolIndex).toNat then toSearch m else m)) := by
  obtain ⟨dmr, events, hframe, hindex, -⟩ := process_frame u.dmr.symbolIndex.toNat d u
  rw [dmrvStep, h]
  simp only [hframe, hindex]
  rfl

/-- Settles O47: the dibit taken, the row of the position on it, and the position advanced. -/
theorem voiceStepRunsTheSlotOfItsPosition : Obligations.VoiceStepRunsTheSlotOfItsPosition := by
  intro s hs h0 h19 idx sub
  let c := slice s.car.synctype s.car s.str.symbol
  have hl : ftypeOk s.car.synctype := ⟨by omega, h19⟩
  exact ⟨c.ret, histPush c.raw s, process idx c.ret (histPush c.raw s), exec_dbtNext_locked hs h0 h19 rfl, rfl,
    exec_slotRow_position (hs.histPush c.raw) hl idx c.ret,
    runIn_next_iff.mpr ⟨hs, dmrvStep_of_dbtNext (dbtNext_locked h0 h19)⟩⟩

/-- Settles O49: the row and the unit operation are one step. -/
theorem dataStepCountsItsSpan : Obligations.DataStepCountsItsSpan := by
  intro s hs h0 h19 raw u t
  have hstep : dmrdStep s = .ok t := by
    rw [dmrdStep, dbtNext_locked h0 h19]
    rfl
  exact ⟨runIn_next_iff.mpr ⟨hs, hstep⟩, runIn_next_iff.mpr ⟨hs, hstep⟩⟩

end Sys2Proof.Machine
end

section
/-! The statements of spec/46_dstar_slot.md on a segment and on the header's symbols: the entries, the bit of a voice and of a
data segment, the evaluation at a segment's end, and the count to the last header symbol. -/

-- One declaration at a time, as in the tests, keeps the memory of the one-text compile small.
set_option Elab.async false

namespace Sys2Proof.Machine

/-! ### The entries (R175, R188) -/

/-- Settles O50: each entry's meaning is the write of its registers. -/
theorem dStarEntriesClearTheirRegisters : Obligations.DStarEntriesClearTheirRegisters := fun s hs =>
  ⟨runIn_ok hs (dstEnter s), runIn_ok hs (dsthEnter s)⟩

/-! ### The evaluation of a data segment (R184 to R187) -/

/-- Slow data is reported as it stands after the entry, and descrambled from then on (R187). -/
theorem reportSlowData_eq (first : Bool) (s : State) :
    reportSlowData first s =
      (let b0 := if first then s.dst.slow[0] else s.dst.slow[0] ^^^ s.cfg.dstarMask0
       let b1 := if first then s.dst.slow[1] else s.dst.slow[1] ^^^ s.cfg.dstarMask1
       let b2 := if first then s.dst.slow[2] else s.dst.slow[2] ^^^ s.cfg.dstarMask2
       { s with dst.slow := #v[b0, b1, b2], events := s.events ++ [.slowData b0 b1 b2 (!first)] }) := by
  cases first with
  | true => simp only [reportSlowData, emit, if_true, BitVec.ofNat_eq_ofNat, BitVec.xor_zero]
  | false => rfl

/-- Settles O53: of the three ways the evaluation goes, the comparisons of the rolling buffer select one. -/
theorem segmentEvaluationFollowsItsRules : Obligations.SegmentEvaluationFollowsItsRules := by
  intro s phase u finish
  obtain ⟨hsync, he⟩ | ⟨hsync, heot, he⟩ | ⟨hsync, heot, he⟩ := evaluate_cases s
  · exact ⟨fun _ => he, fun hn => absurd hsync hn, fun hn => absurd hsync hn⟩
  · exact ⟨fun h => absurd h hsync, fun _ _ => he, fun _ hn => absurd heot hn⟩
  · exact ⟨fun h => absurd h hsync, fun _ h => absurd h heot,
      fun _ _ => he.trans (congrArg endSegment (reportSlowData_eq ..))⟩

/-! ### The intake of a bit (R177) -/

/-- Under a lock code the intake records the raw value and shifts the data bit into the rolling buffer (R177). -/
theorem intake_locked {s : State} (h0 : 0 ≤ s.car.synctype.toInt) (h19 : s.car.synctype.toInt ≤ 19) :
    intake s =
      (let c := slice s.car.synctype s.car s.str.symbol
       .ok ({ histPush c.raw s with dst.bitbuf := shiftBit s.dst.bitbuf (dibitLo c.ret) }, dibitLo c.ret)) := by
  rw [intake, dbtNext_locked h0 h19]
  rfl

/-- In the voice segment `DSTV.BIT` is the intake and the voice part on its bit (R178). -/
theorem dstvBit_of_intake {s u : State} {b : Bool} (hpos : s.dst.dstPos.toNat < 72) (h : intake s = .ok (u, b)) :
    dstvBit s = .ok (voiceBit b u) := by
  have hvoice : ¬ Config.voiceSegment ≤ s.dst.dstPos.toNat := Nat.not_le.mpr hpos
  rw [dstvBit, if_neg hvoice, h]

/-- In the data segment `DSTD.BIT` is the intake and the data part on its bit (R181). -/
theorem dstdBit_of_intake {s u : State} {b : Bool} (hpos : 72 ≤ s.dst.dstPos.toNat) (h : intake s = .ok (u, b)) :
    dstdBit s = .ok (dataBit b u) := by
  have hdata : ¬ s.dst.dstPos.toNat < Config.voiceSegment := Nat.not_lt.mpr hpos
  rw [dstdBit, if_neg hdata, h]

/-! ### The voice segment (R178 to R180) -/

/-- Below position 72 a bit that does not complete the sync is scattered, into a cleared frame at position 0, the position
counts without leaving its register, and position 71 hands the frame off (R178, R180). -/
theorem voiceBit_scatter {s : State} (b : Bool) (hsync : s.dst.bitbuf ≠ s.cfg.dstarSync24)
    (hpos : s.dst.dstPos.toNat < 72) :
    voiceBit b s =
      (let pos := s.dst.dstPos.toNat
       let fr := frameSet (if pos = 0 then 0 else s.dst.dfr) s.cfg.romDw[pos]! s.cfg.romDx[pos]! b
       { s with
         dst.dfr := fr, dst.dstPos := s.dst.dstPos + 1
         events := s.events ++ if pos = 71 then [.voiceFrame s.car.synctype fr] else [] }) := by
  have hlast : s.dst.dstPos.toNat + 1 = Config.voiceSegment ↔ s.dst.dstPos.toNat = 71 := Nat.succ_inj
  have hcount : countUp .dstPos s.dst.dstPos = s.dst.dstPos + 1 := countUp_of_lt _ _ (by omega)
  simp only [voiceBit, if_neg hsync, hlast, hcount, romAt_eq_getElem!]
  split
  · rfl
  · rw [List.append_nil]

/-- Settles O51: the bit that completes the sync is the slip of R179, any other is scattered. -/
theorem voiceBitScattersOrSlips : Obligations.VoiceBitScattersOrSlips := by
  intro s hs h0 h19 hpos c b pos buf u fr t
  have hvoice : voiceBit b u = t := by
    by_cases hsync : buf = s.cfg.dstarSync24
    · exact (if_pos hsync).trans (if_pos hsync).symm
    · exact (voiceBit_scatter (s := u) b hsync hpos).trans (if_neg hsync).symm
  have hstep : dstvBit s = .ok t := hvoice ▸ dstvBit_of_intake hpos (intake_locked h0 h19)
  exact ⟨runIn_next_iff.mpr ⟨hs, hstep⟩, runIn_next_iff.mpr ⟨hs, hstep⟩⟩

/-! ### The data segment (R181, R183) -/

/-- The bytes after bit `k` of the segment: cleared at its first bit, bit `k % 8` of byte `k / 8` joined with `b`, the others
and the bits past the third byte left alone (R181). -/
theorem getElem_slowWith (v : Vector Byte 3) (k : Nat) (b : Bool) {j : Nat} (hj : j < 3) :
    (slowWith v k b)[j] =
      (let start : Vector Byte 3 := if k = 0 then #v[0, 0, 0] else v
       if k < 24 ∧ j = k / 8 then start[j] ||| ((BitVec.ofBool b).setWidth 8 <<< (k % 8)) else start[j]) := by
  have hstart : (if k = 0 then Vector.replicate 3 0 else v) = if k = 0 then #v[0, 0, 0] else v := rfl
  rw [slowWith, hstart]
  generalize (if k = 0 then #v[0, 0, 0] else v : Vector Byte 3) = start
  by_cases hk : k < 24
  · by_cases hjk : j = k / 8
    · subst hjk
      simp [hk, hj]
    · simp [hk, hjk, Ne.symm hjk]
  · simp [hk]

/-- Settles O52: the bytes are those of `slowWith`, and the last bit of the segment evaluates it. -/
theorem dataBitFillsTheSlowBytes : Obligations.DataBitFillsTheSlowBytes := by
  intro s hs h0 h19 hpos c b k start
  refine ⟨slowWith s.dst.slow k b, fun j hj => getElem_slowWith s.dst.slow k b hj, ?_⟩
  intro u t
  have hstep : dstdBit s = .ok t := dstdBit_of_intake hpos (intake_locked h0 h19)
  exact ⟨runIn_next_iff.mpr ⟨hs, hstep⟩, runIn_next_iff.mpr ⟨hs, hstep⟩⟩

/-! ### The header's symbols (R189 to R192) -/

/-- `DSTH.BIT` after its dibit was recorded and counted: at the last symbol the header's decode and the restart (R189). -/
theorem dsthBit_last {s m : State} {p : State × Dibit} (h : dbtNext s = .ok p)
    (hlast : (countUp .hdCnt p.1.hdr.hdCnt).toNat = 660)
    (hm : dsthDecode { p.1 with hdr.hdCnt := countUp .hdCnt p.1.hdr.hdCnt } = .ok m) : dsthBit s = .ok (toSearch m) := by
  rw [dsthBit_eq, h]
  exact (if_pos hlast).trans (by rw [headerEnd, hm]; rfl)

/-- Before the last symbol `DSTH.BIT` records the dibit and counts it (R189). -/
theorem dsthBit_before {s : State} {p : State × Dibit} (h : dbtNext s = .ok p)
    (hlast : (countUp .hdCnt p.1.hdr.hdCnt).toNat ≠ 660) :
    dsthBit s = .ok { p.1 with hdr.hdCnt := countUp .hdCnt p.1.hdr.hdCnt } := by
  rw [dsthBit_eq, h]
  exact if_neg hlast

/-- Settles O54: a state with one more symbol counted still runs operations, so at the last symbol the decode answers. -/
theorem headerBitDecodesAtTheLast : Obligations.HeaderBitDecodesAtTheLast := by
  intro s hs hl
  refine ⟨exec_uopDsthDecode hs hl, fun h0 => ?_⟩
  intro raw u
  have hnext := dbtNext_locked h0 hl.2
  by_cases hlast : (countUp .hdCnt s.hdr.hdCnt).toNat = 660
  · have hu : Ready u := hs.histPush raw
    have hdecode := exec_uopDsthDecode hu hl
    have hstep := dsthBit_last hnext hlast (runIn_next_iff.mp hdecode).2
    exact ⟨_, runIn_next_iff.mpr ⟨hs, hstep⟩, runIn_next_iff.mpr ⟨hs, hstep⟩, fun hn => absurd hlast hn,
      fun _ => ⟨_, hdecode, rfl⟩⟩
  · have hstep := dsthBit_before hnext hlast
    exact ⟨u, runIn_next_iff.mpr ⟨hs, hstep⟩, runIn_next_iff.mpr ⟨hs, hstep⟩, fun _ => rfl,
      fun h => absurd h hlast⟩

end Sys2Proof.Machine
end

section
/-! The statements of spec/47_orchestrator.md: the step of the command stream, the restart of the search, and the search row,
which answers wherever operations run. -/

-- One declaration at a time, as in the tests, keeps the memory of the one-text compile small.
set_option Elab.async false

namespace Sys2Proof.Machine

/-! ### The step and its command word (R200, R210) -/

theorem takeInput_of_word {s : State} {w : CommandWord} {rest : List CommandWord} (h : s.input = w :: rest) :
    takeInput s = some (w, { s with input := rest, events := [], ret := .none }) := by
  unfold takeInput
  rw [h]

theorem takeInput_of_no_word {s : State} (h : s.input = []) : takeInput s = none := by
  unfold takeInput
  rw [h]

/-- Settles O7: a word that decodes, a word that does not, no word. -/
theorem stepRunsTheDecodedInstruction : Obligations.StepRunsTheDecodedInstruction := by
  refine ⟨fun s w rest i hw hd => ?_, fun s w rest e hw hd => ?_, fun s hw => ?_⟩
  · simp only [step, takeInput_of_word hw, hd]
  · simp only [step, takeInput_of_word hw, hd]
  · simp only [step, takeInput_of_no_word hw, idle]

/-! ### The restart of the search (R206) -/

/-- Levels that follow from `max` and `min` still follow from them without a lock (R104). -/
theorem levels_unlocked {c : CarRegs} (h : levels c = c) :
    levels { c with synctype := ftypeNone } = { c with synctype := ftypeNone } :=
  congrArg (fun d : CarRegs => { d with synctype := ftypeNone }) h

/-- Settles O33: the operation has no refusal of its own. -/
theorem toSearchRestartsTheSearch : Obligations.ToSearchRestartsTheSearch := fun s hs =>
  ⟨runIn_ok hs (toSearch s), levels_unlocked⟩

/-! ### The search leaves the block where operations run -/

/-- A state with the invariant of all steps is one that operations run in. -/
theorem Inv.ready {s : State} (h : Inv s) : Ready s :=
  (ready_iff s).mpr ⟨h.legal, h.fixed, h.codes.fsm, h.codes.rfMod, h.codes.window, h.codes.light, h.codes.lidx,
    h.hist.pointer⟩

theorem searchIntake_lidx (v : Sample) (s : State) :
    (searchIntake v s).fs.lidx = BitVec.ofNat 5 ((s.fs.lidx.toNat + 1) % 24) := by
  rw [searchIntake, ageHint_eq, modulationWindow_eq]
  rfl

theorem searchIntake_synctestPos (v : Sample) (s : State) :
    (searchIntake v s).fs.synctestPos = s.fs.synctestPos := by
  rw [searchIntake, ageHint_eq, modulationWindow_eq]
  rfl

/-- The modulation class after the intake of a symbol is the one before or the chosen one (R98). -/
theorem searchIntake_rfMod (v : Sample) (s : State) :
    (searchIntake v s).car.rfMod = s.car.rfMod ∨
      (searchIntake v s).car.rfMod = hypothesisClass s.cfg s.str.numflips.toNat := by
  rw [searchIntake, ageHint_eq, modulationWindow_eq]
  exact (ite_eq_or_eq _ _ _).symm

/-- The entry a search symbol shifts into the window is a digit (R96, R99). -/
theorem searchDibit_went (s : State) (v : Sample) : ((searchDibit s v).setWidth 3).toNat ≤ 4 := by
  unfold searchDibit
  split <;> decide

theorem Ready.searchIntake {s : State} (hs : Ready s) (v : Sample) : Ready (searchIntake v s) := by
  obtain ⟨hlegal, hcfg, hfsm, hmod, hwindow, hlight, -, hwp⟩ := (ready_iff s).mp hs
  obtain ⟨d, hhist⟩ := searchIntake_pushedOnce v s
  have hmod' : (Machine.searchIntake v s).car.rfMod ≠ 3 := by
    obtain h | h := searchIntake_rfMod v s <;> rw [h]
    exacts [hmod, hypothesisClass_ne _ _]
  have hwindow' : ∀ e ∈ (Machine.searchIntake v s).fs.window.toList, e.toNat ≤ 4 := by
    intro e he
    rw [searchIntake_window] at he
    obtain rfl | he := mem_shiftIn he
    · exact searchDibit_went s v
    · exact hwindow e he
  have hlidx' : (Machine.searchIntake v s).fs.lidx.toNat < 24 := by
    rw [searchIntake_lidx, BitVec.toNat_ofNat]
    omega
  have hwp' : (Machine.searchIntake v s).hist.wp < s.cfg.histCap := by
    rw [hhist]
    exact Nat.mod_lt _ (Nat.zero_lt_of_lt hwp)
  rw [ready_iff, searchIntake_cfg, searchIntake_cfgReset, searchIntake_fsm, searchIntake_dmr]
  exact ⟨hlegal, hcfg, hfsm, hmod', hwindow', hlight, hlidx', hwp'⟩

theorem Ready.noCarrier {s : State} (hs : Ready s) : Ready (noCarrier s) := by
  obtain ⟨hlegal, hcfg, hfsm, hmod, hwindow, -, hlidx, hwp⟩ := (ready_iff s).mp hs
  exact (ready_iff _).mpr ⟨hlegal, hcfg, hfsm, hmod, hwindow, lightsOk_replicate_idle s.dmr, hlidx, hwp⟩

theorem Ready.expireHint {s : State} (hs : Ready s) : Ready (expireHint s) := by
  unfold Machine.expireHint
  split <;> exact hs

theorem Ready.searchMiss {s : State} (hs : Ready s) : Ready (searchMiss s).1 := by
  have hcount : Ready (countMiss (Machine.expireHint s)) := hs.expireHint
  obtain h | h := searchMiss_cases s <;> rw [h]
  exacts [hcount.noCarrier, hcount]

theorem Ready.fsStep {s : State} (hs : Ready s) (v : Sample) : Ready (fsStep v s).1 := by
  have hi : Ready (Machine.searchIntake v s) := hs.searchIntake v
  obtain ⟨-, h⟩ | ⟨r, -, h | ⟨-, h⟩⟩ := fsStep_cases v s <;> rw [h] <;>
    generalize Machine.searchIntake v s = u at hi ⊢
  · exact hi.searchMiss
  · exact hi
  · exact Ready.searchMiss hi

/-! ### What the search step leaves unchanged -/

theorem searchMiss_events (s : State) : (searchMiss s).1.events = s.events := by
  obtain h | h := searchMiss_cases s <;> simp [h]

theorem searchMiss_ret (s : State) : (searchMiss s).1.ret = s.ret := by
  obtain h | h := searchMiss_cases s <;> simp [h]

/-- The search step gives no event: it is the orchestrator that reports its result (R110, R203). -/
theorem fsStep_events (v : Sample) (s : State) : (fsStep v s).1.events = s.events := by
  obtain ⟨-, h⟩ | ⟨r, -, h | ⟨-, h⟩⟩ := fsStep_cases v s <;> simp [h, searchMiss_events]

theorem fsStep_ret (v : Sample) (s : State) : (fsStep v s).1.ret = s.ret := by
  obtain ⟨-, h⟩ | ⟨r, -, h | ⟨-, h⟩⟩ := fsStep_cases v s <;> simp [h, searchMiss_ret]

/-! ### The reaction to a result (R203 to R205) -/

/-- A symbol without a confirmed match gives no code. -/
theorem searchMiss_ne_sync (s : State) (code : Ftype) : (searchMiss s).2 ≠ .sync code := by
  obtain h | h := searchMiss_cases s <;> simp [h]

/-- Under a legal configuration the code of a `Sync` is a frame-type code, whatever else the state holds (R46, R101). -/
theorem fsStep_sync_ftypeOk {s : State} (hl : configLegal s.cfg = true) {v : Sample} {code : Ftype}
    (hc : (fsStep v s).2 = .sync code) : ftypeOk code := by
  obtain ⟨-, h⟩ | ⟨r, hm, h | ⟨-, h⟩⟩ := fsStep_cases v s <;> rw [h] at hc
  · exact absurd hc (searchMiss_ne_sync _ _)
  · cases hc
    exact ftypeOk_of_lt (codeOf_legal ((searchIntake_cfg s v).symm ▸ hl) (firstMatch_mem hm))
  · exact absurd hc (searchMiss_ne_sync _ _)

/-- Under a lock on a frame-type code the entry of its protocol state answers (R204, R205). -/
theorem enter_answers {s : State} (hs : Ready s) (hl : ftypeOk s.car.synctype) (code : Ftype) :
    ∃ t, enter code s = .ok t := by
  unfold enter
  split
  · exact dmrvEnter_answers hs hl
  · split
    · exact dmrdEnter_answers hs hl
    · split
      · exact ⟨_, rfl⟩
      · split <;> exact ⟨_, rfl⟩

/-- The reaction to a result whose code, if any, is a frame-type code answers (R203). -/
theorem react_answers {s : State} (hs : Ready s) {r : SyncResult} (hr : ∀ code, r = .sync code → ftypeOk code) :
    ∃ t, react r s = .ok t := by
  cases r with
  | none => exact ⟨_, rfl⟩
  | noSync => exact ⟨_, rfl⟩
  | sync code =>
    rw [react, lockOn_eq]
    have hlock : Ready { s with
      car.synctype := code, car.lastsynctype := code, car.carrier := true, events := s.events ++ [.sync code] } := hs
    exact enter_answers hlock (hr code rfl) code

/-- Wherever operations run the search step and its reaction answer. -/
theorem onSearch_answers {s : State} (hs : Ready s) (v : Sample) : ∃ t, onSearch v s = .ok t :=
  react_answers (hs.fsStep v) fun _ => fsStep_sync_ftypeOk hs.legal

/-- The row's search step and reaction, by the step's outcome (R203). -/
theorem exec_fsStep {s u : State} {r : SyncResult} (hp : fsStep s.str.symbol s = (u, r)) :
    exec .fsStep s = runIn s (react r u) := by
  change runIn s (react (fsStep s.str.symbol s).2 (fsStep s.str.symbol s).1) = _
  rw [hp]

/-- Settles O34: the search step leaves the result register and the events to the reaction. -/
theorem searchRowReactsToItsResult : Obligations.SearchRowReactsToItsResult := by
  intro s hs
  obtain ⟨t, ht⟩ := onSearch_answers hs s.str.symbol
  refine ⟨⟨t, runIn_next_iff.mpr ⟨hs, ht⟩⟩, ?_⟩
  have hu := hs.fsStep s.str.symbol
  have hret := fsStep_ret s.str.symbol s
  have hevents := fsStep_events s.str.symbol s
  obtain ⟨⟨u, r⟩, hp⟩ : ∃ p, fsStep s.str.symbol s = p := ⟨_, rfl⟩
  rw [hp] at hu hret hevents
  refine ⟨_, exec_uopFsStep hs hp, ?_⟩
  rw [exec_fsStep hp, ← hret, ← hevents]
  refine ⟨fun h => ?none, fun h => ?noSync, fun i code hi h => ?sync⟩
  case none =>
    obtain rfl : r = .none := Ret.sync.inj h
    exact runIn_ok hs u
  case noSync =>
    obtain rfl : r = .noSync := Ret.sync.inj h
    exact runIn_ok hs (reportNoSync u)
  case sync =>
    obtain rfl : r = .sync code := Ret.sync.inj h
    rw [exec_ftypeRow hi]
    exact runIn_congr (hs.trans hu.symm) _

end Sys2Proof.Machine
end

section
/-! The statements of spec/47_orchestrator.md, continued: the host's operations answer, and how a sample moves the state
machine. -/

-- One declaration at a time, as in the tests, keeps the memory of the one-text compile small.
set_option Elab.async false

namespace Sys2Proof.Machine

/-! ### The host's operations answer (R213, R215, R226) -/

/-- The codes under which a protocol state is entered are codes `DBT.NEXT` slices by (R109, R116). -/
theorem lockCodes_range : ∀ f : BitVec 3, f ≠ lookingForSync → f.toNat ≤ 4 →
    ∀ code ∈ lockCodes f, 0 ≤ code.toInt ∧ code.toInt ≤ 19 := by decide

/-- Where operations run and the lock is consistent, the row of a symbol answers: every row but the search slices by the
code of the lock, and a D-STAR row is chosen by the position it demands. -/
theorem symbolRow_answers {s : State} (hs : Ready s) (hl : LockOk s) : ∃ t, exec (symbolRow s) s = .next t := by
  by_cases h0 : s.fsm = lookingForSync
  · obtain ⟨hrow, -⟩ := searchRowReactsToItsResult s hs
    rw [symbolRow, if_pos h0]
    exact hrow
  obtain ⟨-, -, hfsm, -⟩ := (ready_iff s).mp hs
  obtain ⟨hlo, hhi⟩ := lockCodes_range s.fsm h0 hfsm _ hl.lock
  unfold symbolRow
  rw [if_neg h0]
  split
  · obtain ⟨_, _, _, -, -, -, hrow⟩ := voiceStepRunsTheSlotOfItsPosition s hs hlo hhi
    exact ⟨_, hrow⟩
  · split
    · obtain ⟨hrow, -⟩ := dataStepCountsItsSpan s hs hlo hhi
      exact ⟨_, hrow⟩
    · split
      · split
        · obtain ⟨hrow, -⟩ := voiceBitScattersOrSlips s hs hlo hhi ‹_›
          exact ⟨_, hrow⟩
        · obtain ⟨_, -, hrow, -⟩ := dataBitFillsTheSlowBytes s hs hlo hhi (Nat.le_of_not_lt ‹_›)
          exact ⟨_, hrow⟩
      · obtain ⟨-, hbit⟩ := headerBitDecodesAtTheLast s hs ⟨by omega, hhi⟩
        obtain ⟨t, hrow, -⟩ := hbit hlo
        exact ⟨t, hrow⟩

/-- Under the host's invariant every sample is accepted: `STR.PUSH` moves neither the lock nor what the guard reads. -/
theorem orcPush_answers {s : State} (h : HostInv s) (v : Sample) : ∃ t, orcPush v s = .ok t := by
  obtain ⟨str, maj, hframe⟩ := strPush_frame v (haveSync s) { s with events := [] }
  obtain ⟨-, hk⟩ | ⟨y, -, hk⟩ := orcPush_cases v s
  · exact ⟨_, hk⟩
  · rw [hframe] at hk
    have hready : Ready { s with str := { str with symbol := y }, maj := maj, events := [] } := h.inv.ready
    obtain ⟨t, ht⟩ := symbolRow_answers hready ⟨h.lock, h.dstar, h.header⟩
    rw [exec_symbolRow hready] at ht
    exact ⟨t, hk.trans (ok_of_runIn ht)⟩

/-- Settles O16: the host issues `ORC.PUSH` and `ORC.RESET` only (R74). -/
theorem hostOperationsAreTotal : Obligations.HostOperationsAreTotal := by
  intro i s hi h
  obtain rfl | ⟨v, rfl⟩ := hi
  · exact ⟨_, exec_orcReset h.inv.legal⟩
  · obtain ⟨t, ht⟩ := orcPush_answers h v
    exact ⟨t, runIn_next_iff.mpr ⟨h.inv.ready, ht⟩⟩

/-! ### The symbol register and the events, which neither `STR.PUSH` nor the search reads -/

/-- `s` with another symbol in its register and other events. -/
def withOutput (y : Sample) (e : List Event) (s : State) : State := { s with str.symbol := y, events := e }

section
variable (v y : Sample) (e : List Event) (s : State)

@[simp] theorem withOutput_symbol : (withOutput y e s).str.symbol = y := rfl

theorem accumulate_withOutput : accumulate v (withOutput y e s) = withOutput y e (accumulate v s) := by
  simp only [accumulate]
  rw [apply_ite (withOutput y e)]
  rfl

theorem strIntake_withOutput (sync : Bool) :
    strIntake v sync (withOutput y e s) = withOutput y e (strIntake v sync s) :=
  congrArg (fun u : State => { u with str.sidx := countUp .sidx u.str.sidx })
    (accumulate_withOutput (clamp s.car sync v) y e (track sync (clamp s.car sync v) s))

theorem strPush_withOutput (sync : Bool) :
    strPush v sync (withOutput y e s) = Prod.map (withOutput y e) id (strPush v sync s) := by
  simp only [strPush, strIntake_withOutput]
  rw [apply_ite (Prod.map (withOutput y e) id)]
  rfl

theorem searchIntake_withOutput : searchIntake v (withOutput y e s) = withOutput y e (searchIntake v s) := by
  simp only [searchIntake, ageHint_eq, modulationWindow_eq]
  rfl

theorem searchMiss_withOutput :
    searchMiss (withOutput y e s) = Prod.map (withOutput y e) id (searchMiss s) := by
  have hexpire : expireHint (withOutput y e s) = withOutput y e (expireHint s) := by
    unfold expireHint
    rw [apply_ite (withOutput y e)]
    rfl
  simp only [searchMiss, carrierWatch, hexpire]
  rw [apply_ite (Prod.map (withOutput y e) id)]
  rfl

/-- The search step goes the same way whatever the symbol register and the events hold. -/
theorem fsStep_withOutput : fsStep v (withOutput y e s) = Prod.map (withOutput y e) id (fsStep v s) := by
  have hi := searchIntake_withOutput v y e s
  have hm : firstMatch (searchIntake v (withOutput y e s)) = firstMatch (searchIntake v s) := by
    rw [hi]
    rfl
  have hfs : (searchIntake v (withOutput y e s)).fs = (searchIntake v s).fs := by
    rw [hi]
    rfl
  cases hr : firstMatch (searchIntake v s) with
  | none => rw [fsStep_of_none hr, fsStep_of_none (hm.trans hr), hi, searchMiss_withOutput]
  | some r =>
    by_cases hc : r.twoHit = false ∨ inPair (codeOf s.cfg r) (searchIntake v s).fs.hint = true
    · rw [fsStep_of_confirmed hr hc, fsStep_of_confirmed (hm.trans hr) (hfs.symm ▸ hc), hi]
      rfl
    · obtain ⟨htwo, hp⟩ := not_or.mp hc
      rw [fsStep_of_pending hr (Bool.not_eq_false _ ▸ htwo) hp,
        fsStep_of_pending (hm.trans hr) (Bool.not_eq_false _ ▸ htwo) (hfs.symm ▸ hp), hi]
      generalize searchIntake v s = u
      exact searchMiss_withOutput y e { recalibrate u with fs.hint := codeOf s.cfg r, fs.tHint := 0 }

end

/-! ### What follows a result of the search (R203 to R205, R207) -/

/-- The state of the state machine a lock on a code enters; the search for a code without a decoder in scope. -/
def entryState (code : Ftype) : BitVec 3 :=
  if code = 11 ∨ code = 12 then processingDmrVoice
  else if code = 10 ∨ code = 13 then processingDmrData
  else if code = 6 ∨ code = 7 then processingDStar
  else if code = 18 ∨ code = 19 then processingDStarHeader
  else lookingForSync

theorem entryState_table : ∀ code : Ftype,
    (code = 11 ∨ code = 12 → entryState code = 1) ∧ (code = 10 ∨ code = 13 → entryState code = 2) ∧
      (code = 6 ∨ code = 7 → entryState code = 3) ∧ (code = 18 ∨ code = 19 → entryState code = 4) ∧
      (code ∉ ([6, 7, 10, 11, 12, 13, 18, 19] : List Ftype) → entryState code = 0) := by decide

section
variable {s t : State}

theorem enter_fsm {code : Ftype} (h : enter code s = .ok t) : t.fsm = entryState code := by
  obtain ⟨hvoice, hdata, hdstar, hheader, hforeign⟩ := entryState_table code
  obtain ⟨hc, h⟩ | ⟨hc, h⟩ | ⟨hc, rfl⟩ | ⟨hc, rfl⟩ | ⟨hc, rfl⟩ := enter_ok h
  · obtain ⟨-, _, _, rfl, -⟩ := dmrvEnter_ok h
    exact (hvoice hc).symm
  · obtain ⟨-, _, _, rfl, -⟩ := dmrdEnter_ok h
    exact (hdata hc).symm
  · exact (hdstar hc).symm
  · exact (hheader hc).symm
  · exact (hforeign hc).symm

/-- The state of the state machine after a result of the search. -/
def resultState : SyncResult → BitVec 3
  | .sync code => entryState code
  | .none | .noSync => lookingForSync

theorem onSearch_fsm {v : Sample} (h : onSearch v s = .ok t) (hf : s.fsm = lookingForSync) :
    t.fsm = resultState (fsStep v s).2 := by
  have hstep := (fsStep_searchesOn v s).fsm
  unfold onSearch at h
  generalize fsStep v s = p at h hstep
  obtain ⟨u, r⟩ := p
  cases r with
  | none =>
    cases h
    exact hstep.trans hf
  | noSync =>
    cases h
    rfl
  | sync code => exact enter_fsm h

/-! ### What follows a symbol of a protocol state (R163, R168, R179, R184, R186, R189, R207) -/

/-- A state in which the search restarts exactly if the span is complete (R163, R168). -/
theorem fsm_ite_toSearch {p : Prop} [Decidable p] {f : BitVec 3} (hf : s.fsm = f) :
    (if p then toSearch s else s).fsm = if p then 0 else f := by
  split
  · rfl
  · exact hf

theorem dmrvStep_fsm (h : dmrvStep s = .ok t) (hf : s.fsm = processingDmrVoice) :
    t.fsm = if s.cfg.dmrVoiceEnd ≤ (countUp .symbolIndex s.dmr.symbolIndex).toNat then 0 else 1 := by
  obtain ⟨u, d, hu, -⟩ := dmrvStep_ok h
  rw [dmrvStep_of_dbtNext hu] at h
  obtain ⟨-, -, rfl, -⟩ := dbtNext_ok_iff.mp hu
  obtain ⟨dmr, events, hprocess, -, -⟩ :=
    process_frame s.dmr.symbolIndex.toNat d (histPush (slice s.car.synctype s.car s.str.symbol).raw s)
  cases h
  simp only [histPush_dmr, histPush_cfg, hprocess]
  exact fsm_ite_toSearch hf

theorem dmrdStep_fsm (h : dmrdStep s = .ok t) (hf : s.fsm = processingDmrData) :
    t.fsm = if s.cfg.dmrDataSpan ≤ (countUp .dcount s.dmr.dcount).toNat then 0 else 2 := by
  obtain ⟨u, d, hu, rfl⟩ := dmrdStep_ok h
  obtain ⟨-, -, rfl, -⟩ := dbtNext_ok_iff.mp hu
  exact fsm_ite_toSearch hf

theorem dsthBit_fsm (h : dsthBit s = .ok t) (hf : s.fsm = processingDStarHeader) :
    t.fsm = if (countUp .hdCnt s.hdr.hdCnt).toNat = 660 then 0 else 4 := by
  obtain ⟨u, d, hu, hcase⟩ := dsthBit_ok h
  obtain ⟨-, -, rfl, -⟩ := dbtNext_ok_iff.mp hu
  obtain ⟨hcount, rfl⟩ | ⟨hcount, w, -, rfl⟩ := hcase
  · exact hf.trans (if_neg hcount).symm
  · exact (if_pos hcount).symm

/-- A voice bit, slipped or scattered, keeps the state of the state machine (R178, R179). -/
theorem dstvBit_fsm (h : dstvBit s = .ok t) : t.fsm = s.fsm := by
  obtain ⟨-, u, b, hu, rfl⟩ := dstvBit_ok h
  obtain ⟨hist, buf, rfl⟩ := intake_frame hu
  obtain ⟨-, hv⟩ | ⟨-, dfr, events, hv⟩ := voiceBit_cases b { s with hist := hist, dst.bitbuf := buf } <;> rw [hv]
  rfl

/-- What ends a D-STAR lock at the end of a data segment, told from the state after it: an end of transmission was
reported, or the misses have reached the limit (R184, R186). -/
def LosesLock (c : Config) (t : State) : Prop := Event.endOfTx ∈ t.events ∨ c.dstarMissLimit ≤ t.dst.miss.toNat

/-- `t` is a D-STAR state that has lost its lock exactly if `p`. -/
def SearchesIff (t : State) (p : Prop) : Prop := (t.fsm = 3 ∨ t.fsm = 0) ∧ (t.fsm = 0 ↔ p)

theorem searchesIff_of_search {p : Prop} (hf : t.fsm = lookingForSync) (hp : p) : SearchesIff t p :=
  ⟨.inr hf, fun _ => hp, fun _ => hf⟩

theorem searchesIff_of_dstar {p : Prop} (hf : t.fsm = processingDStar) (hp : ¬ p) : SearchesIff t p :=
  ⟨.inl hf, fun h => absurd (hf.symm.trans h) (by decide), fun h => absurd h hp⟩

theorem endSegment_searchesIff (hf : s.fsm = processingDStar) (he : Event.endOfTx ∉ s.events) :
    SearchesIff (endSegment s) (LosesLock s.cfg (endSegment s)) := by
  obtain ⟨hmiss, h⟩ | ⟨hmiss, h⟩ := endSegment_cases s <;> rw [h]
  · exact searchesIff_of_search rfl (.inr hmiss)
  · exact searchesIff_of_dstar hf fun hp => hp.elim he (Nat.not_le.mpr hmiss)

theorem evaluate_searchesIff (hf : s.fsm = processingDStar) (he : Event.endOfTx ∉ s.events) :
    SearchesIff (evaluate s) (LosesLock s.cfg (evaluate s)) := by
  obtain ⟨-, h⟩ | ⟨-, -, h⟩ | ⟨-, -, h⟩ := evaluate_cases s <;> rw [h]
  · refine endSegment_searchesIff ?_ ?_
    exacts [hf, he]
  · exact searchesIff_of_search rfl (.inl (List.mem_append_right _ List.mem_cons_self))
  · refine endSegment_searchesIff (s := reportSlowData _ _) hf ?_
    simpa [reportSlowData] using he

/-- A data bit evaluates the segment at its last position, and only then may the lock be lost (R183). -/
theorem dstdBit_searchesIff (h : dstdBit s = .ok t) (hf : s.fsm = processingDStar) (he : s.events = []) :
    SearchesIff t ((countUp .dstPos s.dst.dstPos).toNat = 72 + s.cfg.dstarDataSyms ∧ LosesLock s.cfg t) := by
  obtain ⟨-, u, b, hu, rfl⟩ := dstdBit_ok h
  obtain ⟨hist, buf, rfl⟩ := intake_frame hu
  simp only [dataBit]
  split
  · rename_i hlast
    have hlast' : (countUp .dstPos s.dst.dstPos).toNat = 72 + s.cfg.dstarDataSyms := hlast
    simp only [hlast', true_and]
    refine evaluate_searchesIff ?_ ?_
    exacts [hf, by simp [he]]
  · rename_i hlast
    exact searchesIff_of_dstar hf fun hp => hlast hp.1

/-- A voice bit is before the last position of the segment (R5, R176). -/
theorem dstvBit_searchesIff (h : dstvBit s = .ok t) (hf : s.fsm = processingDStar) (hl : configLegal s.cfg = true) :
    SearchesIff t ((countUp .dstPos s.dst.dstPos).toNat = 72 + s.cfg.dstarDataSyms ∧ LosesLock s.cfg t) := by
  have hsyms := configLegal_dstarDataSyms hl
  obtain ⟨hpos, -⟩ := dstvBit_ok h
  have hcount := countUp_toNat .dstPos s.dst.dstPos (by omega)
  exact searchesIff_of_dstar ((dstvBit_fsm h).trans hf) fun hp => by omega

end

/-! ### The transition relation over one sample (R207) -/

/-- A sample inside a period changes the timing alone; a symbol gets the selected operation on the state after
`STR.PUSH`, in either case with the events of the last step gone (R200, R201, R208). -/
theorem orcPush_ok {s t : State} {v : Sample} (h : orcPush v s = .ok t) :
    ((strPush v (haveSync s) s).2 = none ∧ t = withOutput s.str.symbol [] (strPush v (haveSync s) s).1) ∨
      ∃ y, (strPush v (haveSync s) s).2 = some y ∧
        selectOperation (dispatchWord s) (withOutput y [] (strPush v (haveSync s) s).1) = .ok t := by
  have hp : strPush v (haveSync s) { s with events := [] } =
      Prod.map (withOutput s.str.symbol []) id (strPush v (haveSync s) s) := strPush_withOutput v _ [] s _
  have hcases := orcPush_cases v s
  rw [hp] at hcases
  generalize strPush v (haveSync s) s = p at hcases ⊢
  obtain ⟨hn, hk⟩ | ⟨y, hy, hk⟩ := hcases
  · exact .inl ⟨hn, (Except.ok.inj (hk.symm.trans h)).symm⟩
  · exact .inr ⟨y, hy, hk.symm.trans h⟩

/-- The operation a symbol selects, state by state (R58, R200). -/
theorem selectOperation_of_fsm (s u : State) :
    (s.fsm = lookingForSync → selectOperation (dispatchWord s) u = onSearch u.str.symbol u) ∧
      (s.fsm = processingDmrVoice → selectOperation (dispatchWord s) u = dmrvStep u) ∧
      (s.fsm = processingDmrData → selectOperation (dispatchWord s) u = dmrdStep u) ∧
      (s.fsm = processingDStar →
        selectOperation (dispatchWord s) u = if s.dst.dstPos.toNat < 72 then dstvBit u else dstdBit u) ∧
      (s.fsm = processingDStarHeader → selectOperation (dispatchWord s) u = dsthBit u) := by
  rw [selectOperation_dispatchWord]
  refine ⟨fun h => ?_, fun h => ?_, fun h => ?_, fun h => ?_, fun h => ?_⟩ <;> rw [h] <;> rfl

/-- Settles O20: without a symbol `STR.PUSH` alone, with one the operation `fsm` selects. That operation starts from `s`
but for the timing and the events, so what its lemma says of its start (`hend`) is said of `s`. -/
theorem fsmFollowsTheTransitionTable : Obligations.FsmFollowsTheTransitionTable := by
  intro s t v ht
  obtain ⟨hs, hpush⟩ := runIn_next_iff.mp (show runIn s (orcPush v s) = .next t from ht)
  obtain ⟨str, maj, hframe⟩ := strPush_frame v (haveSync s) s
  obtain ⟨hnone, rfl⟩ | ⟨y, hsome, hk⟩ := orcPush_ok hpush
  · exact ⟨fun _ => by rw [hframe]; rfl, fun y hy => nomatch hnone.symm.trans hy⟩
  refine ⟨fun hn => (nomatch hsome.symm.trans hn), fun z hz => ?_⟩
  obtain rfl : y = z := Option.some.inj (hsome.symm.trans hz)
  obtain ⟨hsearch, hvoice, hdata, hdstar, hheader⟩ :=
    selectOperation_of_fsm s (withOutput y [] (strPush v (haveSync s) s).1)
  refine ⟨fun hf => ?search, fun hf => ?voice, fun hf => ?data, fun hf => ?dstar, fun hf => ?header⟩
  case search =>
    have hsync : haveSync s = false := by simp [haveSync, hf]
    have hfsm : (withOutput y [] (strPush v (haveSync s) s).1).fsm = lookingForSync := by rw [hframe]; exact hf
    have hresult := onSearch_fsm ((hsearch hf).symm.trans hk) hfsm
    rw [withOutput_symbol, fsStep_withOutput, Prod.map_snd, id_eq, hsync] at hresult
    intro r
    change t.fsm = resultState r at hresult
    refine ⟨?unlocked, fun code hc => ?locked⟩
    case unlocked => rintro (hr | hr) <;> rw [hresult, hr] <;> rfl
    case locked =>
      rw [hresult, hc]
      exact entryState_table code
  case voice =>
    rw [hvoice hf, hframe] at hk
    have hend := dmrvStep_fsm hk hf
    exact hend
  case data =>
    rw [hdata hf, hframe] at hk
    have hend := dmrdStep_fsm hk hf
    exact hend
  case dstar =>
    rw [hdstar hf, hframe] at hk
    split at hk
    · have hend := dstvBit_searchesIff hk hf hs.legal
      exact hend
    · have hend := dstdBit_searchesIff hk hf rfl
      exact hend
  case header =>
    rw [hheader hf, hframe] at hk
    have hend := dsthBit_fsm hk hf
    exact hend

end Sys2Proof.Machine
end

section
/-! The statements of spec/60_exceptions.md and spec/70_reset_and_hazards.md: what taking a condition writes, what a reset
leaves, and how much of it a loss of carrier restores. -/

-- One declaration at a time, as in the tests, keeps the memory of the one-text compile small.
set_option Elab.async false

namespace Sys2Proof.Machine

/-! ### The conditions (R215 to R222) -/

/-- The miss counted is that of the state before the symbol: neither its intake nor hint expiry counts (R107, R217). -/
theorem takeCondition_noSync (s : State) :
    takeCondition .noSync s =
      { expireHint (searchIntake s.str.symbol s) with
        fs.synctestPos := countUp .synctestPos s.fs.synctestPos } := by
  rw [takeCondition, countMiss, expireHint_synctestPos, searchIntake_synctestPos]

/-- Settles O60: each row is the writes of its condition, which nothing refuses. -/
theorem conditionsPerformTheirWrites : Obligations.ConditionsPerformTheirWrites := by
  intro s hs
  refine ⟨?noSync, runIn_ok hs _, runIn_ok hs _, runIn_ok hs _, runIn_ok hs _, runIn_ok hs _, runIn_ok hs _,
    runIn_ok hs (takeCondition .emptyWindow s)⟩
  intro u e
  have hexpire : expireHint u = e := by
    rw [expireHint, searchIntake_cfg]
    rfl
  rw [← hexpire, ← takeCondition_noSync]
  exact runIn_ok hs _

/-! ### Reset (R212, R235) -/

/-- What a vector at its reset value holds. -/
theorem eq_of_mem_toList_replicate {α : Type} {n : Nat} {a b : α} (h : b ∈ (Vector.replicate n a).toList) : b = a :=
  Vector.eq_of_mem_replicate (Vector.mem_toList_iff.mp h)

/-- The same of two arrays of one reset value, of any lengths. -/
theorem eq_of_mem_append_replicate {α : Type} {m n : Nat} {a b : α}
    (h : b ∈ (Vector.replicate m a).toList ++ (Vector.replicate n a).toList) : b = a :=
  (List.mem_append.mp h).elim eq_of_mem_toList_replicate eq_of_mem_toList_replicate

/-- The status registers read nothing of the configuration (R29). -/
theorem resetWith_statusReg (c : Config) (input : List CommandWord) :
    statusReg (State.resetWith c input) = statusReg State.reset :=
  rfl

/-- The reset state holds R235's table: the length of a legal period fits its register, and everything else is the same
for every configuration. -/
theorem resetWith_atReset {c : Config} (h : configLegal c = true) (input : List CommandWord) :
    AtReset c (State.resetWith c input) where
  fsm := rfl
  thresholds := ⟨rfl, rfl, rfl⟩
  midLevels := ⟨rfl, rfl⟩
  lockMemory := ⟨rfl, rfl, rfl, rfl⟩
  hints := ⟨rfl, rfl⟩
  timing := ⟨rfl, rfl, rfl, rfl, rfl, rfl⟩
  period := by
    obtain ⟨-, hsps, -, -⟩ := configLegal_sps h
    exact ⟨Nat.mod_eq_of_lt (by omega), rfl⟩
  majority := ⟨rfl, rfl, rfl⟩
  buffer := ⟨fun _ => eq_of_mem_toList_replicate, rfl⟩
  window := fun _ => eq_of_mem_toList_replicate
  search := ⟨rfl, rfl, rfl⟩
  history := ⟨fun _ => rfl, rfl⟩
  positions := ⟨rfl, rfl, rfl, rfl⟩
  fields := ⟨fun _ => eq_of_mem_append_replicate, fun _ => eq_of_mem_append_replicate⟩
  slots := ⟨rfl, rfl, rfl, rfl, rfl⟩
  burst := ⟨rfl, rfl⟩
  frames := ⟨rfl, rfl, rfl, rfl⟩
  dstar := ⟨rfl, rfl, rfl, rfl⟩
  bytes := ⟨fun _ => eq_of_mem_toList_replicate, fun _ => eq_of_mem_toList_replicate⟩
  config := rfl
  status := by rw [resetWith_statusReg, statusReg_reset]

/-- The decided configuration is legal (R5). -/
theorem configLegal_decided : configLegal decided = true := by decide +kernel

/-- Settles O9: both are the reset state of a legal configuration. -/
theorem resetLeavesTheTableValues : Obligations.ResetLeavesTheTableValues :=
  ⟨resetWith_atReset configLegal_decided [], fun s h => ⟨_, exec_orcReset h, resetWith_atReset h s.input, rfl⟩⟩

/-- Settles O13: the reset state of a legal configuration meets both. -/
theorem resetMeetsTheInvariants : Obligations.ResetMeetsTheInvariants :=
  ⟨resetWith_inv configLegal_decided [], resetWith_hostInv configLegal_decided []⟩

/-! ### Loss of carrier (R236) -/

/-- After a loss of carrier the restart recomputes the levels and removes the lock, and changes neither (R104, R108). -/
theorem noCarrier_car_unlocked (s : State) :
    levels { (noCarrier s).car with synctype := ftypeNone } = (noCarrier s).car :=
  noCarrier_levels s

/-- Settles O10: what the loss of carrier and the restart write is at its reset value. -/
theorem carrierLossIsAPartialReset : Obligations.CarrierLossIsAPartialReset := by
  intro s hs r
  refine ⟨noCarrier s, runIn_ok hs _, (runIn_ok hs.noCarrier _).trans ?_⟩
  rw [toSearch, noCarrier_car_unlocked]
  rfl

end Sys2Proof.Machine
end
